-- ==== Sys2Proof/Word.lean ====
section
/-! DEFINITION. The word types of the Blink Scheduler, and nothing else.
Widths: `00_scope.md` rules R5, R9 and R11, `30_encoding.md` rules R54 to R56. -/

namespace Sys2Proof

/-- One bit of the interface or of a LED slot: a pin level, or a `mode` (R11, R15, R53). -/
abbrev Bit := BitVec 1

/-- A 16-bit field: port, pin, blink bitmask, repeat counter (R5, R9, R11). -/
abbrev Half := BitVec 16

/-- The 4-bit LED index of a command word (R40, R55). -/
abbrev Index := BitVec 4

/-- The 4-bit cyclic slot counter, `SLOT_W` = 4 (R5, R21). -/
abbrev Slot := BitVec 4

/-- The 8-bit response (R30, R62). -/
abbrev Resp := BitVec 8

/-- One whole command word: exactly 48 bits, presented in parallel (R43, R54). -/
abbrev CmdWord := BitVec 48

end Sys2Proof
end

