-- ==== Sys2Proof/Config.lean ====
section
/-! DEFINITION. The parameters of the hardware (`00_scope.md` rules R5 to R12) and its free values.

A parameter the spec gives a value for THIS hardware is a plain constant; one it leaves open (`BOARD`,
`IRQ_PRIORITY`, `TIM_RELOAD`) and the unspecified level of an undriven pad are opaque: nothing in Lean can evaluate
them, so what is proved of the model holds for every value of them. -/

namespace Sys2Proof.Config

/-- `MAX_SLOTS`: the slots of one blink cycle (R5). -/
abbrev maxSlots : Nat := 16

/-- `MAX_LEDS` of this hardware (R6, decision D1; log entry 1). -/
abbrev maxLeds : Nat := 4

/-- `DEFAULT_MASK` of this hardware: slots 0 to 7 lit (R10, decision D5; log entry 2). -/
def defaultMask : Half := 0x00FF

/-- `REPEAT_FOREVER`: the sentinel -1, bit pattern 0xFFFF (R9, decision D4; log entry 3). -/
def repeatForever : Half := 0xFFFF

/-- `BLINKING_PERIOD` in time-units: timing only, no step reads it (R7). -/
def blinkingPeriod : Nat := 1200

/-- `SLOT_PERIOD` in time-units: timing only, no step reads it (R7, R139). -/
def slotPeriod : Nat := blinkingPeriod / maxSlots

/-- `PRESCALE`: the fixed division `tim_enable` configures (R8, R80). -/
def prescale : Nat := 4

/-- `OK` (R11, R62; log entry 4). -/
def respOk : Resp := 0x00

/-- `ERR_INDEX`, -1 (R11, R62, R116; log entry 4). -/
def respErrIndex : Resp := 0xFF

/-- `ERR_ILLEGAL`, -2 (R11, R62, R118; log entry 4). -/
def respErrIllegal : Resp := 0xFE

/-- One complete `(port, pin, mode)` triple of a board profile (R12). -/
structure BoardEntry where
  port : Half
  pin : Half
  mode : Bit
deriving DecidableEq, Repr

/-- How many LED indices a board profile covers: "per LED index 0..3" (R12, R48). -/
abbrev boardLeds : Nat := 4

/-- `BOARD`: the board profile, open (R12, decision D19; log entry 5). An absent index is `none`. -/
opaque board : Nat → Option BoardEntry

/-- `IRQ_PRIORITY`: the interrupt priority INIT configures, open and read by no rule (R12, R28; log entry 6). -/
opaque irqPriority : Nat

/-- `TIM_RELOAD`: the auto-reload value `tim_enable` configures, open and read by no rule (R80; log entry 6). -/
opaque timReload : Nat

/-- The level of a pad that nothing has driven since power-up: unspecified (R33, decision D18; log entry 7). -/
opaque padPowerUp : Half → Half → Bit

end Sys2Proof.Config
end

