-- ==== Sys2Proof/Syntax.lean ====
section
/-! DEFINITION. The steps the machine can take: the seven commands and the four events of `spec/opcode_table.json`,
one constructor per row (`30_encoding.md` rules R57 and R63). -/

namespace Sys2Proof

/-- The logical state of a LED: OFF, ON or BLINK (R11, R17). The reserved state code 3 has no constructor: it is
never stored (R17) and no command that carries it is executed (R60). -/
inductive LedState where
  | off
  | on
  | blink
deriving DecidableEq, Repr

/-- The steps of the machine. A command carries the operands of its word as R56 assembles them: `index` unsigned,
`mask`, `port` and `pin` raw, `repeats` and `count` 16-bit two's complement. An event carries nothing (R63). -/
inductive Instr where
  /-- INIT: register the board's LEDs and enable the interrupt line (R69). -/
  | init
  /-- REGISTER: register one LED slot and drive its pin dark (R68). -/
  | register (index : Index) (port pin : Half) (mode : Bit)
  /-- SETSTATE: the primitive `set_led_state` as a command (R94). -/
  | setstate (index : Index) (state : LedState) (mask repeats : Half)
  /-- SET: a state with the default parameters (R95). -/
  | set (index : Index) (state : LedState)
  /-- BLINK: an explicit pattern and count (R96). -/
  | blink (index : Index) (mask count : Half)
  /-- GET: the stored logical state (R70). -/
  | get (index : Index)
  /-- TOGGLE: OFF to ON, ON to OFF, BLINK to ON (R97). -/
  | toggle (index : Index)
  /-- OVERFLOW: one slot period has elapsed (R84). -/
  | overflow
  /-- OTHERFLAG: some other status flag of the timer becomes set (R86). -/
  | otherflag
  /-- ISR: one run of the timer-overflow handler (R102). -/
  | isr
  /-- RESET: the machine takes its initial state (R132). -/
  | reset
deriving DecidableEq, Repr

end Sys2Proof
end

