-- ==== Sys2Proof/Machine/State.lean ====
section
/-! DEFINITION. All the state of the hardware (`10_state.md`), the model's own input schedule, the reset value (R39),
and the two reason types of a step that stops. -/

namespace Sys2Proof.Machine

/-- The timer's counting mode. `tim_enable` configures the one the spec names (R27, R80). -/
inductive ClockMode where
  | extSync
deriving DecidableEq, Repr

/-- The timer's configuration record `{clock_mode, prescale, reload}` (R27). -/
structure TimConfig where
  clockMode : ClockMode
  prescale : Nat
  reload : Nat
deriving DecidableEq, Repr

/-- One GPIO command on the `gpio` interface (R32, R53). -/
inductive GpioCmd where
  | set (port pin : Half) (level : Bit)
  | toggle (port pin : Half)
deriving DecidableEq, Repr

/-- One driven pad of the external GPIO collaborator and its level (R33). -/
structure PadCell where
  port : Half
  pin : Half
  level : Bit
deriving DecidableEq, Repr

/-- The pads driven since power-up, sorted by identity, each at most once (R33; log entry 7). -/
abbrev Pads := List PadCell

/-- One LED slot of the Registry, exactly seven fields (R13 to R20). -/
structure LedSlot where
  /-- `registered`: unregistered slots are inert (R20). -/
  registered : Bool
  /-- `port`, opaque GPIO identity (R14). -/
  port : Half
  /-- `pin`, opaque GPIO identity (R14). -/
  pin : Half
  /-- `mode`, the active polarity (R15). -/
  mode : Bit
  /-- `state`, the stored logical state (R17). -/
  state : LedState
  /-- `slots_mask`: bit k belongs to time slot k (R18, R42). -/
  slotsMask : Half
  /-- `repeat`, 16-bit two's complement countdown of slot advances (R19). -/
  repeats : Half
deriving DecidableEq, Repr

/-- What the environment does at one instant besides `rst`: it presents a word on `cmd`, pulses `ovf` or `oflag`, or
does nothing, which leaves room for the ISR (R53, R63). -/
inductive Input where
  | cmd (w : CmdWord)
  | ovf
  | oflag
  | quiet
deriving DecidableEq, Repr

/-- One instant of the input interface: whether `rst` is pulsed, and what else happens at that instant (R53, R132). -/
structure Instant where
  rst : Bool
  input : Input
deriving DecidableEq, Repr

/-- The state of the machine (`10_state.md`), with the model's own field `inputs`. -/
structure State where
  /-- `led[0]` to `led[MAX_LEDS - 1]` (R13). -/
  led : Vector LedSlot Config.maxLeds
  /-- `current_slot` (R21). -/
  currentSlot : Slot
  /-- `tim_run`, the counter-enable bit (R22). -/
  timRun : Bool
  /-- `tim_clk_en` (R23). -/
  timClkEn : Bool
  /-- `tim_lpclk_en` (R23). -/
  timLpclkEn : Bool
  /-- `tim_ovf_ie`, the overflow-interrupt enable (R24). -/
  timOvfIe : Bool
  /-- `tim_ovf`, the overflow status flag (R25). -/
  timOvf : Bool
  /-- `tim_sr_other`, every other status flag of the timer (R26). -/
  timSrOther : Bool
  /-- `tim_cfg`; `none` is *unconfigured* (R27). -/
  timCfg : Option TimConfig
  /-- `irq_en`, the interrupt line's enable at the controller (R28). -/
  irqEn : Bool
  /-- `irq_prio`; `none` is *unset* (R28). -/
  irqPrio : Option Nat
  /-- `resp`, the response to the last command (R30). -/
  resp : Resp
  /-- `gpio_trace`, the GPIO commands emitted since reset, oldest first (R32). -/
  gpioTrace : List GpioCmd
  /-- `pad`, the external collaborator's pads (R33). -/
  pad : Pads
  /-- The MODEL's own field (log entry 8): what the environment does at the coming instants, in the one total order
  of R49. Every order of commands and events is a value of it; when it is empty the environment stays quiet. -/
  inputs : List Instant
deriving DecidableEq, Repr

/-- A step of this hardware never faults: "No fatal paths" (R115). The type has no constructor, so no meaning can. -/
inductive Fault where
deriving DecidableEq, Repr

/-- Why a step is refused. The hardware refuses nothing (R115): an illegal word is ANSWERED, with `ERR_ILLEGAL`. -/
inductive Refusal where
  /-- An instruction that has no meaning yet, by its mnemonic. Raised by no arm of this model; safe. -/
  | notModelled (mnemonic : String)
deriving DecidableEq, Repr

/-- The reset value of a LED slot: unregistered, `(OFF, 0, 0)`, the rest zero (R39). -/
def LedSlot.reset : LedSlot :=
  { registered := false, port := 0, pin := 0, mode := 0, state := .off, slotsMask := 0, repeats := 0 }

/-- The machine right after reset at power-up: the table of R39, no pad driven yet (R33), and a quiet environment
(the model's own choice for `inputs`, log entry 8). -/
def State.reset : State :=
  { led := Vector.replicate Config.maxLeds LedSlot.reset
    currentSlot := 0
    timRun := false
    timClkEn := false
    timLpclkEn := false
    timOvfIe := false
    timOvf := false
    timSrOther := false
    timCfg := none
    irqEn := false
    irqPrio := none
    resp := 0x00
    gpioTrace := []
    pad := []
    inputs := [] }

end Sys2Proof.Machine
end

