-- ==== Sys2Proof/Machine/Flags.lean ====
section
/-! DEFINITION. The timer's status flags `tim_ovf` and `tim_sr_other`, the only flags of the hardware (R25, R26), and
the interrupt request they make. -/

namespace Sys2Proof.Machine

/-- The overflow flag set: sticky, so a second overflow merges with the first (R84, R85). -/
def State.raiseOverflow (s : State) : State := { s with timOvf := true }

/-- Some other status flag set (R86). -/
def State.raiseOther (s : State) : State := { s with timSrOther := true }

/-- Every status flag cleared (R109). -/
def State.clearFlags (s : State) : State := { s with timOvf := false, timSrOther := false }

/-- The timer requests an interrupt: an enabled overflow, or some other flag (R101, R122 "pending"). -/
def State.irqPending (s : State) : Bool := (s.timOvf && s.timOvfIe) || s.timSrOther

/-- The guard of the ISR: the interrupt line is enabled and the timer requests (R101). -/
def State.isrGuard (s : State) : Bool := s.irqEn && s.irqPending

end Sys2Proof.Machine
end

