-- ==== Sys2Proof/WellFormed.lean ====
section
/-! DEFINITION. Which steps are command words, and on which interface line each step arrives.

The operand types of `Instr` already rule out what a command may not carry: an index has four bits (R55), a mode one
(R15), and the reserved state code 3 has no constructor (R60). What is left to check of a term is whether it is a
COMMAND, that is, whether a word on `cmd` stands for it: event inputs are not command words and have no opcode (R63). -/

namespace Sys2Proof

/-- The interfaces by which a step can be caused (R53, R63); `internal` is the ISR, which has no input of its own. -/
inductive Line where
  | cmd
  | ovf
  | oflag
  | rst
  | internal
deriving DecidableEq, Repr

/-- The line on which a step arrives (R53, R63). -/
def Instr.line : Instr → Line
  | .init => .cmd
  | .register _ _ _ _ => .cmd
  | .setstate _ _ _ _ => .cmd
  | .set _ _ => .cmd
  | .blink _ _ _ => .cmd
  | .get _ => .cmd
  | .toggle _ => .cmd
  | .overflow => .ovf
  | .otherflag => .oflag
  | .isr => .internal
  | .reset => .rst

/-- A well-formed command: a step that a 48-bit word on `cmd` stands for. The four events are refused (R63). -/
def Instr.wellFormed (i : Instr) : Bool := i.line == .cmd

end Sys2Proof
end

