-- ==== Sys2Proof/Decode.lean ====
section
/-! DEFINITION. Decoding and encoding of the 48-bit command word (`30_encoding.md` rules R54 to R61), and of one
instant's input.

The decoder is total and follows the order of R61: reserved opcode, must-be-zero bits, reserved state code. -/

namespace Sys2Proof

/-! ## Fields (R55) -/

/-- `opcode` = `cmd[47:44]` (R55). -/
def opcodeField (w : CmdWord) : BitVec 4 := w.extractLsb' 44 4

/-- `index` = `cmd[43:40]` (R55, R56). -/
def indexField (w : CmdWord) : Index := w.extractLsb' 40 4

/-- `state` = `cmd[33:32]` (R55, R56). -/
def stateField (w : CmdWord) : BitVec 2 := w.extractLsb' 32 2

/-- `mode` = `cmd[32]` (R55, R56). -/
def modeField (w : CmdWord) : Bit := w.extractLsb' 32 1

/-- `f1` = `cmd[31:16]`: `mask` or `port` (R55, R56). -/
def f1Field (w : CmdWord) : Half := w.extractLsb' 16 16

/-- `f2` = `cmd[15:0]`: `repeat`, `count` or `pin` (R55, R56). -/
def f2Field (w : CmdWord) : Half := w.extractLsb' 0 16

/-! ## Codes (R11, R17) -/

/-- The state code of a logical state: `OFF` = 0, `ON` = 1, `BLINK` = 2 (R11). -/
def LedState.code : LedState → BitVec 2
  | .off => 0
  | .on => 1
  | .blink => 2

/-- The state a 2-bit code stands for; code 3 is reserved (R11, R60). -/
def LedState.ofCode (c : BitVec 2) : Option LedState :=
  match c.toNat with
  | 0 => some .off
  | 1 => some .on
  | 2 => some .blink
  | _ => none

/-! ## The opcode map (R57) -/

/-- The seven rows of the opcode map (R57). -/
inductive Row where
  | init
  | register
  | setstate
  | set
  | blink
  | get
  | toggle
deriving DecidableEq, Repr

/-- The row an opcode selects; opcodes 0x0 and 0x8 to 0xF are reserved (R57, R58). -/
def Row.ofOpcode (op : BitVec 4) : Option Row :=
  match op.toNat with
  | 1 => some .init
  | 2 => some .register
  | 3 => some .setstate
  | 4 => some .set
  | 5 => some .blink
  | 6 => some .get
  | 7 => some .toggle
  | _ => none

/-- The column `mask` of the opcode map (R57). -/
def Row.fixedBits : Row → CmdWord
  | .init => 0xFFFFFFFFFFFF
  | .register => 0xF0FE00000000
  | .setstate => 0xF0FC00000000
  | .set => 0xF0FCFFFFFFFF
  | .blink => 0xF0FF00000000
  | .get => 0xF0FFFFFFFFFF
  | .toggle => 0xF0FFFFFFFFFF

/-- The column `match` of the opcode map (R57). -/
def Row.pattern : Row → CmdWord
  | .init => 0x100000000000
  | .register => 0x200000000000
  | .setstate => 0x300000000000
  | .set => 0x400000000000
  | .blink => 0x500000000000
  | .get => 0x600000000000
  | .toggle => 0x700000000000

/-- Whether a word selects a row: `w and mask == match` (R57). -/
def Row.selects (r : Row) (w : CmdWord) : Bool := w &&& r.fixedBits == r.pattern

/-! ## The decoder -/

/-- Why a word is illegal, by name, in the order of R61. -/
inductive Illegal where
  /-- A reserved opcode (R58). -/
  | reservedOpcode
  /-- A 1 in a bit the format requires to be zero (R59). -/
  | mustBeZero
  /-- The state code 3 in SETSTATE or SET (R60). -/
  | reservedState
deriving DecidableEq, Repr

/-- The command with a state operand, or the rejection of state code 3 (R60). -/
def withState (w : CmdWord) (f : LedState → Instr) : Except Illegal Instr :=
  match LedState.ofCode (stateField w) with
  | some st => .ok (f st)
  | none => .error .reservedState

/-- The operands of a row's word (R55, R56). -/
def Row.read (r : Row) (w : CmdWord) : Except Illegal Instr :=
  match r with
  | .init => .ok .init
  | .register => .ok (.register (indexField w) (f1Field w) (f2Field w) (modeField w))
  | .setstate => withState w fun st => .setstate (indexField w) st (f1Field w) (f2Field w)
  | .set => withState w fun st => .set (indexField w) st
  | .blink => .ok (.blink (indexField w) (f1Field w) (f2Field w))
  | .get => .ok (.get (indexField w))
  | .toggle => .ok (.toggle (indexField w))

/-- Decode one command word, in the order of R61. -/
def decode (w : CmdWord) : Except Illegal Instr :=
  match Row.ofOpcode (opcodeField w) with
  | none => .error .reservedOpcode
  | some r => if r.selects w then r.read w else .error .mustBeZero

/-! ## The encoder -/

/-- A command word from its five fields, `O I AA FFFF GGGG` (R55). -/
def wordOf (op : BitVec 4) (index : Index) (a : BitVec 8) (f1 f2 : Half) : CmdWord :=
  op ++ index ++ a ++ f1 ++ f2

/-- The word of a command (R55, R57). An event has none (R63). -/
def encode : Instr → Option CmdWord
  | .init => some (wordOf 1 0 0 0 0)
  | .register index port pin mode => some (wordOf 2 index (mode.setWidth 8) port pin)
  | .setstate index st mask repeats => some (wordOf 3 index (st.code.setWidth 8) mask repeats)
  | .set index st => some (wordOf 4 index (st.code.setWidth 8) 0 0)
  | .blink index mask count => some (wordOf 5 index 0 mask count)
  | .get index => some (wordOf 6 index 0 0 0)
  | .toggle index => some (wordOf 7 index 0 0 0)
  | .overflow => none
  | .otherflag => none
  | .isr => none
  | .reset => none

/-! ## The host's word interface -/

/-- The command word whose low `nbits` bits are those of `w` and whose other bits are 0. The table numbers a word's
bits as R54 does, as ONE 48-bit word presented whole (R43), so there is no byte order to apply. -/
def tableWord (nbits w : Nat) : CmdWord := BitVec.ofNat 48 (w % 2 ^ nbits)

/-- The instruction the decoder reads from a word of the opcode table. The table's four event rows have no word:
they are pulses on lines of their own, or internal (R63; log entry 9). -/
def decodeTableWord (nbits w : Nat) : Option Instr :=
  match decode (tableWord nbits w) with
  | .ok i => some i
  | .error _ => none

end Sys2Proof
end

