-- ==== Sys2Proof/Machine/Operands.lean ====
section
/-! DEFINITION. The operand forms: LED index decoding, the polarity function, the bitmask evaluator, the repeat
counter's tests, and the triples the state-setting commands request. -/

namespace Sys2Proof.Machine

/-! ## LED index (R41) -/

/-- The slot of an index, when the index is in range (R41). -/
def State.slotAt (s : State) (i : Nat) : Option LedSlot := s.led[i]?

/-- The slot of a VALID index: in range and registered (R41, R89). -/
def State.validSlot (s : State) (i : Nat) : Option LedSlot := (s.slotAt i).filter (·.registered)

/-- The stored state of an index, OFF when it is out of range (R70). -/
def State.queryState (s : State) (i : Nat) : LedState :=
  match s.slotAt i with
  | some l => l.state
  | none => .off

/-! ## Polarity (R16) -/

/-- The effective state a LED shows at one instant: ON or OFF (R16). -/
inductive Shown where
  | off
  | on
deriving DecidableEq, Repr

/-- The logical level of an effective state, in the numbering `mode` shares (R11, R15). -/
def Shown.level : Shown → Bit
  | .off => 0
  | .on => 1

/-- `level_for(eff, mode)`: 1 iff the effective state equals the mode (R16). -/
def levelFor (eff : Shown) (mode : Bit) : Bit := if eff.level = mode then 1 else 0

/-! ## The bitmask evaluator (R42, R106) -/

/-- Bit `k` of a mask: whether the LED is lit in time slot `k` (R42). -/
def maskBit (mask : Half) (k : Slot) : Bool := mask.getLsbD k.toNat

/-- The time slot before `c`, 0 giving 15 (R106, R112 (b)). -/
def prevSlot (c : Slot) : Slot := c - 1

/-- What a mask shows in time slot `c` (R93). -/
def maskShown (mask : Half) (c : Slot) : Shown := if maskBit mask c then .on else .off

/-! ## The repeat counter (R19, R105) -/

/-- `repeat > 0`, signed (R112). -/
def countsDown (r : Half) : Bool := decide (0 < r.toInt)

/-- A repeat the handler serves: positive or the forever sentinel (R105). -/
def repeatLive (r : Half) : Bool := countsDown r || r == Config.repeatForever

/-- The four conditions under which a LED takes part in the slot advance (R105). -/
def LedSlot.participates (l : LedSlot) : Bool :=
  l.registered && l.state == .blink && l.slotsMask != 0 && repeatLive l.repeats

/-! ## Requested triples (R88, R94 to R97) -/

/-- A requested `(state, on_mask, repeat)` (R88). -/
structure Request where
  state : LedState
  mask : Half
  repeats : Half
deriving DecidableEq, Repr

/-- The request equals the stored triple, as passed, before any forcing to zero (R90). -/
def Request.matchesSlot (q : Request) (l : LedSlot) : Bool :=
  q.state == l.state && q.mask == l.slotsMask && q.repeats == l.repeats

/-- The slot with the request stored: mask and repeat verbatim for BLINK, else both 0 (R91). -/
def Request.store (q : Request) (l : LedSlot) : LedSlot :=
  match q.state with
  | .blink => { l with state := .blink, slotsMask := q.mask, repeats := q.repeats }
  | .on => { l with state := .on, slotsMask := 0, repeats := 0 }
  | .off => { l with state := .off, slotsMask := 0, repeats := 0 }

/-- The effective state a request shows in time slot `c` (R93). -/
def Request.shown (q : Request) (c : Slot) : Shown :=
  match q.state with
  | .blink => maskShown q.mask c
  | .on => .on
  | .off => .off

/-- What SET requests: the default pattern for ever, or the state with mask and repeat 0 (R95). -/
def setRequest (st : LedState) : Request :=
  match st with
  | .blink => ⟨.blink, Config.defaultMask, Config.repeatForever⟩
  | .on => ⟨.on, 0, 0⟩
  | .off => ⟨.off, 0, 0⟩

/-- BLINK's count as a repeat: 0 means for ever, anything else is passed on (R96). -/
def blinkRepeat (count : Half) : Half := if count = 0 then Config.repeatForever else count

/-- What TOGGLE requests of a LED whose stored state is `st`: ON goes to OFF, everything else to ON (R97). -/
def toggleRequest (st : LedState) : Request :=
  match st with
  | .on => ⟨.off, 0, 0⟩
  | .off => ⟨.on, 0, 0⟩
  | .blink => ⟨.on, 0, 0⟩

/-! ## Responses (R62) -/

/-- GET's response: the state code, zero-extended to 8 bits (R62). -/
def stateResp (st : LedState) : Resp := st.code.setWidth 8

end Sys2Proof.Machine
end

