-- ==== Sys2Proof/Machine/Ops.lean ====
section
/-! DEFINITION. The operations every meaning is written over: the pads and the GPIO commands, the LED slot file, the
timer's procedures, the primitive `set_led_state`, registration, the slot advance of the ISR, interrupt entry and
return, and the response. -/

namespace Sys2Proof.Machine

/-! ## The pads of the GPIO collaborator (R33) -/

/-- The order of pad identities: by port, then by pin. -/
def padKey (port pin : Half) : Nat := port.toNat * 65536 + pin.toNat

/-- The key of one pad cell. -/
def PadCell.key (c : PadCell) : Nat := padKey c.port c.pin

/-- The canonical form of the pads: keys strictly rising (log entry 7). -/
abbrev Pads.wf (ps : Pads) : Prop := ps.Pairwise (fun a b => a.key < b.key)

/-- The driven level of a pad, if anything has driven it since power-up. -/
def Pads.find (ps : Pads) (port pin : Half) : Option Bit :=
  match ps with
  | [] => none
  | c :: rest => if c.port = port ∧ c.pin = pin then some c.level else Pads.find rest port pin

/-- The level of a pad; of one nothing has driven, the unspecified power-up level (R33). -/
def Pads.level (ps : Pads) (port pin : Half) : Bit :=
  match Pads.find ps port pin with
  | some l => l
  | none => Config.padPowerUp port pin

/-- `pad[(p, n)] <- l`, keeping the canonical form (R33). -/
def Pads.write (ps : Pads) (port pin : Half) (level : Bit) : Pads :=
  match ps with
  | [] => [⟨port, pin, level⟩]
  | c :: rest =>
    if padKey port pin < c.key then ⟨port, pin, level⟩ :: c :: rest
    else if padKey port pin = c.key then ⟨port, pin, level⟩ :: rest
    else c :: Pads.write rest port pin level

/-- What one GPIO command does to the pads: set writes, toggle inverts (R33). -/
def Pads.apply (ps : Pads) (c : GpioCmd) : Pads :=
  match c with
  | .set port pin level => Pads.write ps port pin level
  | .toggle port pin => Pads.write ps port pin (~~~ Pads.level ps port pin)

/-- The level of a pad in a state (R33). -/
def State.padLevel (s : State) (port pin : Half) : Bit := Pads.level s.pad port pin

/-! ## GPIO commands (R32, R52) -/

/-- The `op` bit of a transfer on the `gpio` interface: 0 = SET, 1 = TOGGLE (R53). -/
def GpioCmd.op : GpioCmd → Bit
  | .set _ _ _ => 0
  | .toggle _ _ => 1

/-- Emit one GPIO command: it is appended to `gpio_trace` and takes effect at once (R32, R52, R120). -/
def State.emit (s : State) (c : GpioCmd) : State :=
  { s with gpioTrace := s.gpioTrace ++ [c], pad := Pads.apply s.pad c }

/-- `gpio_set(port, pin, level)`. -/
def State.gpioSet (s : State) (port pin : Half) (level : Bit) : State := s.emit (.set port pin level)

/-- `gpio_toggle(port, pin)`. -/
def State.gpioToggle (s : State) (port pin : Half) : State := s.emit (.toggle port pin)

/-! ## The LED slot file and the response -/

/-- Write one LED slot; an index out of range writes nothing (R41). -/
def State.setSlot (s : State) (i : Nat) (l : LedSlot) : State := { s with led := s.led.setIfInBounds i l }

/-- `return v`: put the response on `resp` (R30). -/
def State.answer (s : State) (v : Resp) : State := { s with resp := v }

/-- The answer to an illegal word: no effect but `ERR_ILLEGAL` on `resp` (R58 to R60, R118). -/
def State.answerIllegal (s : State) : State := s.answer Config.respErrIllegal

/-! ## The timer's procedures (R75 to R82) -/

/-- `tim_is_enabled()`: reads the counter-enable bit (R75). -/
def State.timIsEnabled (s : State) : Bool := s.timRun

/-- The reset pulse: every register of the peripheral returns to its reset value, the clock gating keeps its 1 (R79;
log entry 10). -/
def State.timResetPulse (s : State) : State :=
  { s with timRun := false, timOvfIe := false, timOvf := false, timSrOther := false, timCfg := none }

/-- The configuration `tim_enable` writes (R27, R80). -/
def enabledConfig : TimConfig := ⟨.extSync, Config.prescale, Config.timReload⟩

/-- `tim_enable()`: slot counter to 0, clock gating on, reset pulse, configuration, interrupt enable, start (R76). -/
def State.timEnable (s : State) : State :=
  let s := { s with currentSlot := 0 }
  let s := { s with timClkEn := true, timLpclkEn := true }
  let s := s.timResetPulse
  { s with timCfg := some enabledConfig, timOvfIe := true, timRun := true }

/-- `tim_disable()`: stops the counter and does nothing else (R82). -/
def State.timDisable (s : State) : State := { s with timRun := false }

/-! ## The primitive `set_led_state` (R88) -/

/-- Some registered LED is in BLINK: the arbitration's scan (R92). -/
def State.anyBlink (s : State) : Bool := s.led.toList.any fun l => l.registered && l.state == .blink

/-- Step 4, timer arbitration (R92). -/
def State.arbitrate (s : State) : State :=
  if s.anyBlink then
    if s.timIsEnabled then s else s.timEnable
  else
    if s.timIsEnabled then s.timDisable else s

/-- Step 5, immediate pin application, with `current_slot` as step 4 left it (R93). -/
def State.applyPin (s : State) (l : LedSlot) (q : Request) : State :=
  s.gpioSet l.port l.pin (levelFor (q.shown s.currentSlot) l.mode)

/-- Steps 3 to 5 on a valid slot: store, arbitrate, drive the pin (R91 to R93). -/
def State.fullPath (s : State) (i : Nat) (l : LedSlot) (q : Request) : State :=
  ((s.setSlot i (q.store l)).arbitrate).applyPin l q

/-- `set_led_state(i, s, m, r)`: validity, short-circuit, then the full path; the code it returns is on `resp`
(R88 to R93, R98). -/
def State.setLedState (s : State) (i : Nat) (q : Request) : State :=
  match s.validSlot i with
  | none => s.answer Config.respErrIndex
  | some l => if q.matchesSlot l then s.answer Config.respOk else (s.fullPath i l q).answer Config.respOk

/-! ## Registration (R68, R69) -/

/-- `do_register(i, p, n, m)`: a silent no-op when the index is out of range (R68). -/
def State.doRegister (s : State) (i : Nat) (port pin : Half) (mode : Bit) : State :=
  if i < Config.maxLeds then
    (s.setSlot i ⟨true, port, pin, mode, .off, 0, 0⟩).gpioSet port pin (levelFor .off mode)
  else s

/-- Register one index of a board profile; an absent entry does nothing (R69). -/
def State.registerEntry (board : Nat → Option Config.BoardEntry) (s : State) (i : Nat) : State :=
  match board i with
  | some e => s.doRegister i e.port e.pin e.mode
  | none => s

/-- INIT on a board profile: the indices in ascending order, then the interrupt's priority and enable (R69). -/
def State.doInit (s : State) (board : Nat → Option Config.BoardEntry) : State :=
  let s := (List.range Config.boardLeds).foldl (State.registerEntry board) s
  { s with irqPrio := some Config.irqPriority, irqEn := true }

/-! ## The slot advance of the ISR (R102) -/

/-- Step 2b: toggle the pin when the mask's bits of the previous and the current slot differ (R106). -/
def State.edgeToggle (s : State) (l : LedSlot) : State :=
  if maskBit l.slotsMask (prevSlot s.currentSlot) != maskBit l.slotsMask s.currentSlot then s.gpioToggle l.port l.pin
  else s

/-- The slot after expiry: `(OFF, 0, 0)` (R107). -/
def LedSlot.expired (l : LedSlot) : LedSlot := { l with state := .off, slotsMask := 0, repeats := 0 }

/-- Step 2c: decrement a finite repeat; at 0 force the LED to OFF and drive the OFF-equivalent level, after any toggle
(R107, R108). -/
def State.countDown (s : State) (i : Nat) (l : LedSlot) : State :=
  if countsDown l.repeats then
    if l.repeats - 1 = 0 then (s.setSlot i l.expired).gpioSet l.port l.pin (levelFor .off l.mode)
    else s.setSlot i { l with repeats := l.repeats - 1 }
  else s

/-- Step 2 for one LED index (R105). -/
def State.advanceLed (s : State) (i : Nat) : State :=
  match s.slotAt i with
  | some l => if l.participates then (s.edgeToggle l).countDown i l else s
  | none => s

/-- Step 1: the slot counter, modulo 16 (R104). -/
def State.bumpSlot (s : State) : State := { s with currentSlot := s.currentSlot + 1 }

/-- Steps 1 and 2: the counter, then every LED in ascending order (R102). -/
def State.slotAdvance (s : State) : State := (List.range Config.maxLeds).foldl State.advanceLed s.bumpSlot

/-! ## The interrupt (R124, R125) -/

/-- Interrupt entry: it saves nothing, changes no mode bit and masks nothing; control goes to the one handler (R124). -/
def State.enterInterrupt (s : State) : State := s

/-- Interrupt return: clearing the status flags is the whole of it (R109, R125). -/
def State.leaveInterrupt (s : State) : State := s.clearFlags

/-- One run of the handler: the slot advance only when the overflow flag is set, then the return (R102, R103). -/
def State.serveInterrupt (s : State) : State :=
  let s := s.enterInterrupt
  (if s.timOvf then s.slotAdvance else s).leaveInterrupt

end Sys2Proof.Machine
end

