-- ==== Sys2Proof/Machine/Events.lean ====
section
/-! DEFINITION. The events: OVERFLOW and OTHERFLAG (`41_timer.md`), ISR (`43_slot_advance.md`), RESET
(`70_reset_and_hazards.md`). An event whose guard does not hold does nothing (R84, R86, R101). -/

namespace Sys2Proof.Machine

/-- OVERFLOW (R84): guard `tim_run == 1`; a pulse while the counter is stopped is ignored. -/
def execOverflow (s : State) : Host.Outcome State Fault Refusal :=
  .next (if s.timRun then s.raiseOverflow else s)

/-- OTHERFLAG (R86): guard `tim_clk_en == 1`; otherwise the pulse is ignored (`93_implementation_defined.md` E5). -/
def execOtherflag (s : State) : Host.Outcome State Fault Refusal :=
  .next (if s.timClkEn then s.raiseOther else s)

/-- ISR (R101, R102): one run of the handler when the guard holds; otherwise no run happens (log entry 11). -/
def execIsr (s : State) : Host.Outcome State Fault Refusal :=
  .next (if s.isrGuard then s.serveInterrupt else s)

/-- RESET (R132, R133): every piece of state takes its reset value; the pads, which are outside the hardware, and the
environment's schedule are not written. -/
def execReset (s : State) : Host.Outcome State Fault Refusal :=
  .next { State.reset with pad := s.pad, inputs := s.inputs }

end Sys2Proof.Machine
end

