-- ==== Sys2Proof/Machine/Registry.lean ====
section
/-! DEFINITION. The LED Registry commands: INIT, REGISTER and GET (`40_registry.md`). -/

namespace Sys2Proof.Machine

/-- INIT (R69), on this hardware's board profile. It starts no timer and always answers `OK`. -/
def execInit (s : State) : Host.Outcome State Fault Refusal :=
  .next ((s.doInit Config.board).answer Config.respOk)

/-- REGISTER (R68). It runs no arbitration and always answers `OK`, an index out of range included. -/
def execRegister (index : Index) (port pin : Half) (mode : Bit) (s : State) : Host.Outcome State Fault Refusal :=
  .next ((s.doRegister index.toNat port pin mode).answer Config.respOk)

/-- GET (R70): the stored state's code, `OFF` for an index out of range; it changes nothing but `resp` (R47). -/
def execGet (index : Index) (s : State) : Host.Outcome State Fault Refusal :=
  .next (s.answer (stateResp (s.queryState index.toNat)))

end Sys2Proof.Machine
end

