-- ==== Sys2Proof/Machine/Setting.lean ====
section
/-! DEFINITION. The state-setting commands: SETSTATE, SET, BLINK and TOGGLE (`42_state_setting.md`), each the primitive
`set_led_state` on a triple of its own. -/

namespace Sys2Proof.Machine

/-- SETSTATE (R94): the primitive as a command. -/
def execSetstate (index : Index) (state : LedState) (mask repeats : Half) (s : State) :
    Host.Outcome State Fault Refusal :=
  .next (s.setLedState index.toNat ⟨state, mask, repeats⟩)

/-- SET (R95): a state with the default parameters. -/
def execSet (index : Index) (state : LedState) (s : State) : Host.Outcome State Fault Refusal :=
  .next (s.setLedState index.toNat (setRequest state))

/-- BLINK (R96): an explicit pattern and count; a count of 0 is for ever. -/
def execBlink (index : Index) (mask count : Half) (s : State) : Host.Outcome State Fault Refusal :=
  .next (s.setLedState index.toNat ⟨.blink, mask, blinkRepeat count⟩)

/-- TOGGLE (R97): by the stored state; an index out of range reads as OFF, and the primitive rejects it. -/
def execToggle (index : Index) (s : State) : Host.Outcome State Fault Refusal :=
  .next (s.setLedState index.toNat (toggleRequest (s.queryState index.toNat)))

end Sys2Proof.Machine
end

