-- ==== Sys2Proof/Machine/Dispatch.lean ====
section
/-! DEFINITION. The meaning of every step, one arm per constructor of `Instr`. -/

namespace Sys2Proof.Machine

def exec (i : Instr) (s : State) : Host.Outcome State Fault Refusal :=
  match i with
  | .init => Sys2Proof.Machine.execInit s
  | .register index port pin mode => Sys2Proof.Machine.execRegister index port pin mode s
  | .setstate index state mask repeats => Sys2Proof.Machine.execSetstate index state mask repeats s
  | .set index state => Sys2Proof.Machine.execSet index state s
  | .blink index mask count => Sys2Proof.Machine.execBlink index mask count s
  | .get index => Sys2Proof.Machine.execGet index s
  | .toggle index => Sys2Proof.Machine.execToggle index s
  | .overflow => Sys2Proof.Machine.execOverflow s
  | .otherflag => Sys2Proof.Machine.execOtherflag s
  | .isr => Sys2Proof.Machine.execIsr s
  | .reset => Sys2Proof.Machine.execReset s

end Sys2Proof.Machine
end

