-- ==== Sys2Proof/Machine/Fetch.lean ====
section
/-! DEFINITION. How the next step comes to be: the head of the environment's schedule, and the instruction that one
instant of input causes (R49, R53, R63). The machine fetches nothing (R31). -/

namespace Sys2Proof.Machine

/-- The coming instant: the head of the schedule; a schedule that has run out is a quiet environment. -/
def State.nextInstant (s : State) : Instant := s.inputs.headD ⟨false, .quiet⟩

/-- The schedule with its head taken. -/
def State.consume (s : State) : State := { s with inputs := s.inputs.tail }

/-- What one input causes: a word on `cmd` is decoded, a pulse is its event, and at a quiet instant the one thing that
can happen is the ISR (R53, R63, R101). -/
def Input.cause : Input → Except Illegal Instr
  | .cmd w => decode w
  | .ovf => .ok .overflow
  | .oflag => .ok .otherflag
  | .quiet => .ok .isr

/-- What one instant causes: RESET wins, and a step that coincides with it does not happen (R123 (f), R132). -/
def Instant.cause (t : Instant) : Except Illegal Instr := if t.rst then .ok .reset else t.input.cause

/-- The instant at which a step happens: a command's word on `cmd`, an event's pulse on its line, a quiet instant for
the ISR (R53, R63). The encoder of the whole input interface. -/
def instantOf (i : Instr) : Instant :=
  match encode i with
  | some w => ⟨false, .cmd w⟩
  | none =>
    match i.line with
    | .ovf => ⟨false, .ovf⟩
    | .oflag => ⟨false, .oflag⟩
    | .rst => ⟨true, .quiet⟩
    | .cmd => ⟨false, .quiet⟩
    | .internal => ⟨false, .quiet⟩

/-- The instruction of the next step, or the reason its command word is illegal. -/
def State.fetch (s : State) : Except Illegal Instr := s.nextInstant.cause

/-- The schedule with one command word put before it. -/
def State.present (s : State) (w : CmdWord) : State := { s with inputs := ⟨false, .cmd w⟩ :: s.inputs }

end Sys2Proof.Machine
end

