-- ==== Sys2Proof/Machine/Step.lean ====
section
/-! DEFINITION. One step of the machine: one command or one event, atomic (R46), in the total order the schedule
gives (R49). -/

namespace Sys2Proof.Machine

/-- One step: take the coming instant and run what it causes; an illegal command word is answered with `ERR_ILLEGAL`
(R46, R49, R58). -/
def step (s : State) : Host.Outcome State Fault Refusal :=
  match s.fetch with
  | .ok i => exec i s.consume
  | .error _ => .next s.consume.answerIllegal

/-- The host presents one word of the opcode table on `cmd`, before everything else in the schedule (log entry 9). -/
def State.withFetchWord (s : State) (nbits w : Nat) : State := s.present (tableWord nbits w)

end Sys2Proof.Machine
end

