-- ==== Sys2Proof/Machine/Assembly.lean ====
section
/-! DEFINITION. The assembler's written form of a step (`30_encoding.md` rule R65) and its pseudo-instructions and
harness directives (R66). No step of the machine reads either. -/

namespace Sys2Proof.Machine

/-- How a state operand is written (R65). -/
def stateText : LedState → String
  | .off => "off"
  | .on => "on"
  | .blink => "blink"

/-- How a mode operand is written: `low` is active-low, `high` active-high (R65). -/
def modeText (m : Bit) : String := if m = 1 then "high" else "low"

/-- One hexadecimal digit. -/
def hexDigit (n : Nat) : Char := if n < 10 then Char.ofNat (48 + n) else Char.ofNat (55 + n)

/-- A 16-bit number as `0x` and four hexadecimal digits (R65). -/
def hexText (v : Half) : String :=
  "0x" ++ String.ofList
    [hexDigit (v.toNat / 4096 % 16), hexDigit (v.toNat / 256 % 16), hexDigit (v.toNat / 16 % 16), hexDigit (v.toNat % 16)]

/-- A repeat or count as a signed decimal number (R56, R65). -/
def countText (v : Half) : String := toString v.toInt

/-- A LED index in decimal (R65). -/
def indexText (i : Index) : String := toString i.toNat

/-- A step as one line of assembly: mnemonic in lower case, operands separated by commas (R65); an event as its harness
directive (R66). -/
def asmText : Instr → String
  | .init => "init"
  | .register i port pin mode =>
    "register " ++ indexText i ++ ", " ++ hexText port ++ ", " ++ hexText pin ++ ", " ++ modeText mode
  | .setstate i st mask repeats =>
    "setstate " ++ indexText i ++ ", " ++ stateText st ++ ", " ++ hexText mask ++ ", " ++ countText repeats
  | .set i st => "set " ++ indexText i ++ ", " ++ stateText st
  | .blink i mask count => "blink " ++ indexText i ++ ", " ++ hexText mask ++ ", " ++ countText count
  | .get i => "get " ++ indexText i
  | .toggle i => "toggle " ++ indexText i
  | .overflow => "overflow"
  | .otherflag => "otherflag"
  | .isr => "isr"
  | .reset => "reset"

/-- One line of assembly that is not a step by itself (R66). -/
inductive Pseudo where
  | on (index : Index)
  | off (index : Index)
  | blinkdef (index : Index)
  | forever (index : Index) (mask : Half)
  | tick (n : Nat)
deriving DecidableEq, Repr

/-- The steps a pseudo-instruction stands for; `tick` alone is `tick 1` (R66, R111). -/
def expand : Pseudo → List Instr
  | .on i => [.set i .on]
  | .off i => [.set i .off]
  | .blinkdef i => [.set i .blink]
  | .forever i mask => [.blink i mask 0]
  | .tick n => (List.replicate n [Instr.overflow, Instr.isr]).flatten

/-- The schedule that makes given steps happen, one instant a step. -/
def scheduleOf (is : List Instr) : List Instant := is.map instantOf

end Sys2Proof.Machine
end

