-- ==== Sys2Proof/Safety.lean ====
section
/-! DEFINITION. The terms in which claims about the machine are stated: what stays the same, what a state-setting
command, INIT and one slot advance leave, and the invariants of `10_state.md` section 4 and of R114.

These say what the RULES say, not what the meanings compute: none of them calls a meaning or an operation on State
but `padLevel`, `levelFor` and `Pads.apply`, each of which has a statement of its own. -/

namespace Sys2Proof.Safety

open Sys2Proof.Machine

/-! ## What stays the same -/

/-- The slot counter and every bit and register of the timer are the same (R21 to R27). -/
structure SameTimer (s t : State) : Prop where
  currentSlot : t.currentSlot = s.currentSlot
  timRun : t.timRun = s.timRun
  timClkEn : t.timClkEn = s.timClkEn
  timLpclkEn : t.timLpclkEn = s.timLpclkEn
  timOvfIe : t.timOvfIe = s.timOvfIe
  timOvf : t.timOvf = s.timOvf
  timSrOther : t.timSrOther = s.timSrOther
  timCfg : t.timCfg = s.timCfg

/-- The interrupt line's enable and priority, and the coming schedule, are the same. -/
structure SameIrqAndInputs (s t : State) : Prop where
  irqEn : t.irqEn = s.irqEn
  irqPrio : t.irqPrio = s.irqPrio
  inputs : t.inputs = s.inputs

/-- Every pad but `(port, pin)` has the same level. -/
def SamePadsBut (port pin : Half) (s t : State) : Prop :=
  ∀ p n, (p, n) ≠ (port, pin) → t.padLevel p n = s.padLevel p n

/-! ## The timer and the blinking LEDs -/

/-- Some registered LED is in BLINK (R35, R92). -/
def Blinking (s : State) : Prop := ∃ (i : Nat) (l : LedSlot), s.led[i]? = some l ∧ l.registered = true ∧ l.state = .blink

/-- The index is valid: in range, and its slot is registered (R41). -/
def Valid (s : State) (x : Index) : Prop := ∃ l, s.led[x.toNat]? = some l ∧ l.registered = true

/-- Drift: the timer runs and no registered LED is in BLINK (R136). -/
def Drift (s : State) : Prop := s.timRun = true ∧ ¬ Blinking s

/-- The net effect of `tim_enable` (R76). -/
structure TimerStarted (t : State) : Prop where
  currentSlot : t.currentSlot = 0
  timRun : t.timRun = true
  timClkEn : t.timClkEn = true
  timLpclkEn : t.timLpclkEn = true
  timOvfIe : t.timOvfIe = true
  timOvf : t.timOvf = false
  timSrOther : t.timSrOther = false
  timCfg : t.timCfg = some ⟨.extSync, 4, Config.timReload⟩

/-! ## The primitive `set_led_state` -/

/-- The effective state a request `(st, m, _)` shows in time slot `c` (R93). -/
def effective (st : LedState) (m : Half) (c : Slot) : Shown :=
  match st with
  | .off => .off
  | .on => .on
  | .blink => if m.getLsbD c.toNat then .on else .off

/-- The slot a request `(st, m, r)` leaves (R91). -/
def stored (l : LedSlot) (st : LedState) (m r : Half) : LedSlot :=
  { l with state := st, slotsMask := if st = .blink then m else 0, repeats := if st = .blink then r else 0 }

/-- What the full path of the primitive leaves: the store (R91), the four rows of the arbitration (R92), the pin
application (R93), and everything else as it was. -/
structure FullPath (i : Nat) (l : LedSlot) (st : LedState) (m r : Half) (s t : State) : Prop where
  slot : t.led[i]? = some (stored l st m r)
  otherSlots : ∀ j : Nat, j ≠ i → t.led[j]? = s.led[j]?
  started : Blinking t → s.timRun = false → TimerStarted t
  kept : Blinking t → s.timRun = true → SameTimer s t
  stopped : ¬ Blinking t → s.timRun = true → SameTimer { s with timRun := false } t
  idle : ¬ Blinking t → s.timRun = false → SameTimer s t
  runsIff : t.timRun = true ↔ Blinking t
  trace : t.gpioTrace = s.gpioTrace ++ [.set l.port l.pin (levelFor (effective st m t.currentSlot) l.mode)]
  pin : t.padLevel l.port l.pin = levelFor (effective st m t.currentSlot) l.mode
  otherPads : SamePadsBut l.port l.pin s t
  rest : SameIrqAndInputs s t
  resp : t.resp = 0x00

/-- What `set_led_state(i, st, m, r)` leaves, whole: an index out of range or unregistered is `ERR_INDEX` and no
effect (R89), a request equal to the stored triple is `OK` and no effect (R90), any other takes the full path. -/
structure Primitive (i : Nat) (st : LedState) (m r : Half) (s t : State) : Prop where
  outOfRange : s.led[i]? = none → t = { s with resp := 0xFF }
  unregistered : ∀ l, s.led[i]? = some l → l.registered = false → t = { s with resp := 0xFF }
  shortCircuit : ∀ l, s.led[i]? = some l → l.registered = true → (st, m, r) = (l.state, l.slotsMask, l.repeats) →
    t = { s with resp := 0x00 }
  full : ∀ l, s.led[i]? = some l → l.registered = true → (st, m, r) ≠ (l.state, l.slotsMask, l.repeats) →
    FullPath i l st m r s t

/-! ## INIT -/

/-- What INIT leaves of a board profile (R69). The level of a pad is decided by the LAST configured index that has its
identity; a pad no configured index has keeps its level. -/
structure BoardRegistered (board : Nat → Option Config.BoardEntry) (s t : State) : Prop where
  slot : ∀ i : Nat, i < 4 → t.led[i]? =
    match board i with
    | some e => some ⟨true, e.port, e.pin, e.mode, .off, 0, 0⟩
    | none => s.led[i]?
  trace : t.gpioTrace = s.gpioTrace ++ [0, 1, 2, 3].filterMap fun i =>
    (board i).map fun e => .set e.port e.pin (levelFor .off e.mode)
  pads : ∀ p n, t.padLevel p n = ([3, 2, 1, 0].findSome? fun i =>
    (board i).bind fun e => if e.port = p ∧ e.pin = n then some (levelFor .off e.mode) else none).getD (s.padLevel p n)
  timer : SameTimer s t
  irqEn : t.irqEn = true
  irqPrio : t.irqPrio = some Config.irqPriority
  inputs : t.inputs = s.inputs
  resp : t.resp = 0x00

/-! ## The slot advance -/

/-- The LED takes part in the slot advance (R105). -/
abbrev TakesPart (l : LedSlot) : Prop :=
  l.registered = true ∧ l.state = .blink ∧ l.slotsMask ≠ 0 ∧ (0 < l.repeats.toInt ∨ l.repeats.toInt = -1)

/-- What one slot advance makes of a slot: the ISR's rows of the transition table (R107, R113). -/
def advanced (l : LedSlot) : LedSlot :=
  if TakesPart l ∧ l.repeats = 1 then { l with state := .off, slotsMask := 0, repeats := 0 }
  else if TakesPart l ∧ 1 < l.repeats.toInt then { l with repeats := l.repeats - 1 }
  else l

/-- The GPIO commands one slot advance to time slot `c` emits for a slot: a toggle where the mask's bits of slots
`c - 1` and `c` (modulo 16) differ, then the OFF level where the count expires (R106, R107). -/
def emitted (c : Slot) (l : LedSlot) : List GpioCmd :=
  if TakesPart l then
    (if l.slotsMask.getLsbD ((c.toNat + 15) % 16) ≠ l.slotsMask.getLsbD c.toNat then [.toggle l.port l.pin] else []) ++
    (if l.repeats = 1 then [.set l.port l.pin (levelFor .off l.mode)] else [])
  else []

/-- What one ISR that finds the overflow flag set leaves: the counter advanced modulo 16, every LED advanced, the GPIO
commands in ascending index, both flags cleared, nothing else changed (R102 to R110). -/
structure Advanced (s t : State) : Prop where
  currentSlot : t.currentSlot.toNat = (s.currentSlot.toNat + 1) % 16
  slots : ∀ i : Nat, t.led[i]? = (s.led[i]?).map advanced
  trace : t.gpioTrace = s.gpioTrace ++ s.led.toList.flatMap (emitted t.currentSlot)
  pads : t.pad = (s.led.toList.flatMap (emitted t.currentSlot)).foldl Pads.apply s.pad
  timOvf : t.timOvf = false
  timSrOther : t.timSrOther = false
  timRun : t.timRun = s.timRun
  timClkEn : t.timClkEn = s.timClkEn
  timLpclkEn : t.timLpclkEn = s.timLpclkEn
  timOvfIe : t.timOvfIe = s.timOvfIe
  timCfg : t.timCfg = s.timCfg
  irqEn : t.irqEn = s.irqEn
  irqPrio : t.irqPrio = s.irqPrio
  resp : t.resp = s.resp
  inputs : t.inputs = s.inputs

/-- A tick is possible: the timer runs and its overflow reaches the handler (R111). -/
def Ticking (s : State) : Prop := s.timRun = true ∧ s.irqEn = true ∧ s.timOvfIe = true

/-- The schedule of `n` ticks, each OVERFLOW then ISR with nothing between (R111). -/
def ticks (n : Nat) : List Instant := (List.replicate n [⟨false, .ovf⟩, ⟨false, .quiet⟩]).flatten

/-! ## Invariants -/

/-- A LED not in BLINK has mask 0 and repeat 0 (R34). -/
def PlainStatesEmpty (s : State) : Prop :=
  ∀ (i : Nat) (l : LedSlot), s.led[i]? = some l → l.state ≠ .blink → l.slotsMask = 0 ∧ l.repeats = 0

/-- A registered LED in BLINK has the timer running (R35). -/
def BlinkNeedsTimer (s : State) : Prop := Blinking s → s.timRun = true

/-- An unregistered slot is inert: `(OFF, 0, 0)` (R37). -/
def UnregisteredInert (s : State) : Prop :=
  ∀ (i : Nat) (l : LedSlot), s.led[i]? = some l → l.registered = false →
    l.state = .off ∧ l.slotsMask = 0 ∧ l.repeats = 0

/-- The pad of a registered LED has been driven, so its level is defined (R33). -/
def PadsDefined (s : State) : Prop :=
  ∀ (i : Nat) (l : LedSlot), s.led[i]? = some l → l.registered = true → ∃ v, Pads.find s.pad l.port l.pin = some v

/-- A running timer has its overflow interrupt enabled and its clock on (R76, R111). -/
def RunningTimerEnabled (s : State) : Prop :=
  s.timRun = true → s.timOvfIe = true ∧ s.timClkEn = true ∧ s.timLpclkEn = true

/-- No other registered LED has LED `i`'s pad (R114, R141). -/
def OwnPad (i : Nat) (s : State) : Prop :=
  ∀ (j : Nat) (li lj : LedSlot), s.led[i]? = some li → s.led[j]? = some lj → lj.registered = true → j ≠ i →
    (lj.port, lj.pin) ≠ (li.port, li.pin)

/-- The pad of LED `i` shows its pattern's bit of the current time slot, as long as the LED takes part (R114). -/
def PadInStep (i : Nat) (s : State) : Prop :=
  ∀ l : LedSlot, s.led[i]? = some l → TakesPart l →
    s.padLevel l.port l.pin = levelFor (effective .blink l.slotsMask s.currentSlot) l.mode

/-! ## The opcode map, as numbers (R57) -/

/-- The columns `mask` and `match` of R57, row by row. -/
def opcodeRows : List (CmdWord × CmdWord) :=
  [(0xFFFFFFFFFFFF, 0x100000000000), (0xF0FE00000000, 0x200000000000), (0xF0FC00000000, 0x300000000000),
   (0xF0FCFFFFFFFF, 0x400000000000), (0xF0FF00000000, 0x500000000000), (0xF0FFFFFFFFFF, 0x600000000000),
   (0xF0FFFFFFFFFF, 0x700000000000)]

/-- The word selects some row of the map (R57). -/
def MatchesRow (w : CmdWord) : Prop := ∃ r ∈ opcodeRows, w &&& r.1 = r.2

/-- The opcode is reserved: 0x0 or 0x8 to 0xF (R58). -/
def ReservedOpcode (w : CmdWord) : Prop := w.toNat / 2 ^ 44 = 0 ∨ 8 ≤ w.toNat / 2 ^ 44

/-- A SETSTATE or SET word that carries the state code 3 (R60). -/
def ReservedState (w : CmdWord) : Prop :=
  (w.toNat / 2 ^ 44 = 3 ∨ w.toNat / 2 ^ 44 = 4) ∧ w.toNat / 2 ^ 32 % 4 = 3

end Sys2Proof.Safety
end

