-- ==== Sys2Proof/Certificates/Slice0/Obligations.lean ====
section
/-! DEFINITION. The statements for the provers, each from the numbered rules of spec/. -/

open Sys2Proof Sys2Proof.Machine Sys2Proof.Safety

/-! ## Reset -/

/-- R39: after RESET every piece of state has the value of the table; R133: no pad is written. The schedule `inputs`
is the model's own field (log entry 8) and is kept. -/
def Obligations.ResetTakesTheTableValues : Prop :=
  ∀ s : State, ∃ t, exec .reset s = .next t ∧
    (∀ i : Nat, i < 4 → t.led[i]? = some ⟨false, 0, 0, 0, .off, 0, 0⟩) ∧
    t.currentSlot = 0 ∧ t.timRun = false ∧ t.timClkEn = false ∧ t.timLpclkEn = false ∧ t.timOvfIe = false ∧
    t.timOvf = false ∧ t.timSrOther = false ∧ t.timCfg = none ∧ t.irqEn = false ∧ t.irqPrio = none ∧
    t.resp = 0x00 ∧ t.gpioTrace = [] ∧ t.pad = s.pad ∧ t.inputs = s.inputs

/-- Every invariant stated below holds of the state after reset (R39 with R33 to R37, R76). -/
def Obligations.ResetMeetsTheInvariants : Prop :=
  PlainStatesEmpty State.reset ∧ BlinkNeedsTimer State.reset ∧ UnregisteredInert State.reset ∧
  PadsDefined State.reset ∧ RunningTimerEnabled State.reset ∧ Pads.wf State.reset.pad

/-! ## Encoding -/

/-- Every command decodes back from its word, with every operand at every value (R55, R56). -/
def Obligations.EncodedCommandDecodesBack : Prop :=
  ∀ i : Instr, i.wellFormed = true → ∃ w, encode i = some w ∧ decode w = .ok i

/-- A word that decodes is the word of the command it decodes to: no legal word has a second spelling (R64). -/
def Obligations.DecodedWordIsItsEncoding : Prop :=
  ∀ (w : CmdWord) (i : Instr), decode w = .ok i → encode i = some w

/-- Every step, event or command, is caused by the instant the model writes for it (R53, R63). -/
def Obligations.InstantCausesItsStep : Prop :=
  ∀ i : Instr, (instantOf i).cause = .ok i

/-- R61: the four cases of decoding, in order, and what the step of such a word is: `ERR_ILLEGAL` and no effect in the
first three, the command's own meaning in the last. The cases exclude one another, and an illegal word is illegal
whatever its index. -/
def Obligations.CommandsDecodeInOrder : Prop :=
  ∀ w : CmdWord,
    (ReservedOpcode w → decode w = .error .reservedOpcode) ∧
    (¬ ReservedOpcode w → ¬ MatchesRow w → decode w = .error .mustBeZero) ∧
    (MatchesRow w → ReservedState w → decode w = .error .reservedState) ∧
    (MatchesRow w → ¬ ReservedState w → ∃ i, decode w = .ok i) ∧
    (∀ (s : State) (rest : List Instant), s.inputs = ⟨false, .cmd w⟩ :: rest →
      (MatchesRow w ∧ ¬ ReservedState w → ∃ i, decode w = .ok i ∧ step s = exec i { s with inputs := rest }) ∧
      (¬ (MatchesRow w ∧ ¬ ReservedState w) → step s = .next { s with inputs := rest, resp := 0xFE }))

/-- The worked encodings of R67 decode to the commands they stand for. -/
def Obligations.WorkedWordsDecode : Prop :=
  decode 0x100000000000 = .ok .init ∧
  decode 0x230100020001 = .ok (.register 3 0x0002 0x0001 1) ∧
  decode 0x210000010006 = .ok (.register 1 0x0001 0x0006 0) ∧
  decode 0x300200010003 = .ok (.setstate 0 .blink 0x0001 3) ∧
  decode 0x300112340007 = .ok (.setstate 0 .on 0x1234 7) ∧
  decode 0x400100000000 = .ok (.set 0 .on) ∧
  decode 0x410200000000 = .ok (.set 1 .blink) ∧
  decode 0x400000000000 = .ok (.set 0 .off) ∧
  decode 0x500000010003 = .ok (.blink 0 0x0001 3) ∧
  decode 0x600000000000 = .ok (.get 0) ∧
  decode 0x5000AAAA0000 = .ok (.blink 0 0xAAAA 0) ∧
  decode 0x520000F0FFFF = .ok (.blink 2 0x00F0 0xFFFF) ∧
  decode 0x690000000000 = .ok (.get 9) ∧
  decode 0x710000000000 = .ok (.toggle 1)

/-! ## One step -/

/-- The word the host presents runs as the very next step, on the state as it was. -/
def Obligations.PresentedWordRunsNext : Prop :=
  ∀ (s : State) (w : Nat) (i : Instr), decodeTableWord 48 w = some i → step (s.withFetchWord 48 w) = exec i s

/-- When the word presented decodes to a command, the step is that command's meaning, with the instant consumed. -/
def Obligations.StepRunsTheDecodedCommand : Prop :=
  ∀ (s : State) (w : CmdWord) (rest : List Instant) (i : Instr),
    s.inputs = ⟨false, .cmd w⟩ :: rest → decode w = .ok i → step s = exec i { s with inputs := rest }

/-- A pulse runs its event, `rst` wins over whatever coincides with it (R123 (f)), and a quiet instant, or a schedule
that has run out, leaves room for the ISR (the model's form of R49, log entry 8). -/
def Obligations.StepRunsTheEvents : Prop :=
  ∀ (s : State) (rest : List Instant),
    (s.inputs = ⟨false, .ovf⟩ :: rest → step s = exec .overflow { s with inputs := rest }) ∧
    (s.inputs = ⟨false, .oflag⟩ :: rest → step s = exec .otherflag { s with inputs := rest }) ∧
    (∀ x, s.inputs = ⟨true, x⟩ :: rest → step s = exec .reset { s with inputs := rest }) ∧
    (s.inputs = ⟨false, .quiet⟩ :: rest → step s = exec .isr { s with inputs := rest }) ∧
    (s.inputs = [] → step s = exec .isr s)

/-- R58: a word with a reserved opcode changes no state and answers `ERR_ILLEGAL`; in particular the all-zero word. -/
def Obligations.ReservedOpcodeIsAnswered : Prop :=
  (∀ (s : State) (w : CmdWord) (rest : List Instant), s.inputs = ⟨false, .cmd w⟩ :: rest → ReservedOpcode w →
    step s = .next { s with inputs := rest, resp := 0xFE }) ∧
  ReservedOpcode 0

/-- R59: a word with a defined opcode that fails the test of its row is illegal, with the effect of R58. -/
def Obligations.NonzeroReservedBitIsAnswered : Prop :=
  ∀ (s : State) (w : CmdWord) (rest : List Instant) (r : CmdWord × CmdWord),
    s.inputs = ⟨false, .cmd w⟩ :: rest → r ∈ opcodeRows → w.toNat / 2 ^ 44 = r.2.toNat / 2 ^ 44 → w &&& r.1 ≠ r.2 →
    step s = .next { s with inputs := rest, resp := 0xFE }

/-- R60: a SETSTATE or SET word whose state field is 3 is illegal, with the effect of R58. -/
def Obligations.ReservedStateCodeIsAnswered : Prop :=
  ∀ (s : State) (w : CmdWord) (rest : List Instant), s.inputs = ⟨false, .cmd w⟩ :: rest → ReservedState w →
    step s = .next { s with inputs := rest, resp := 0xFE }

/-- R115: no command and no event halts the hardware or leaves it stuck, and an index out of range degrades
gracefully: registration is a no-op, mutation answers a negative code, the query answers OFF. -/
def Obligations.EveryStepHasANextState : Prop :=
  (∀ s : State, ∃ t, step s = .next t) ∧
  (∀ (i : Instr) (s : State), ∃ t, exec i s = .next t) ∧
  (∀ (s : State) (x : Index), 4 ≤ x.toNat →
    (∀ p n m, exec (.register x p n m) s = .next { s with resp := 0x00 }) ∧
    (∀ st m r, exec (.setstate x st m r) s = .next { s with resp := 0xFF }) ∧
    (∀ st, exec (.set x st) s = .next { s with resp := 0xFF }) ∧
    (∀ m c, exec (.blink x m c) s = .next { s with resp := 0xFF }) ∧
    exec (.toggle x) s = .next { s with resp := 0xFF } ∧
    exec (.get x) s = .next { s with resp := 0x00 })

/-! ## The Registry -/

/-- R68: REGISTER stores the binding, forces the slot to `(OFF, 0, 0)`, marks it registered, drives the pin dark and
touches nothing else; out of range it is a silent no-op. It answers `OK` in both cases. -/
def Obligations.RegisterStoresAndDrivesDark : Prop :=
  ∀ (s : State) (x : Index) (p n : Half) (m : Bit),
    (x.toNat < 4 → ∃ t, exec (.register x p n m) s = .next t ∧
      t.led[x.toNat]? = some ⟨true, p, n, m, .off, 0, 0⟩ ∧
      (∀ j : Nat, j ≠ x.toNat → t.led[j]? = s.led[j]?) ∧
      t.gpioTrace = s.gpioTrace ++ [.set p n (if m = 0 then 1 else 0)] ∧
      t.padLevel p n = (if m = 0 then 1 else 0) ∧ SamePadsBut p n s t ∧
      SameTimer s t ∧ SameIrqAndInputs s t ∧ t.resp = 0x00) ∧
    (4 ≤ x.toNat → exec (.register x p n m) s = .next { s with resp := 0x00 })

/-- R69: INIT registers every LED the board profile defines, in ascending order, and enables the interrupt line; it
touches no timer bit. `BOARD` is open, so this holds for every profile. -/
def Obligations.InitRegistersTheBoard : Prop :=
  ∀ s : State, ∃ t, exec .init s = .next t ∧ BoardRegistered Config.board s t

/-- R69 for ANY board profile, of the operation INIT runs on `BOARD` before it answers `OK`. -/
def Obligations.AnyBoardIsRegistered : Prop :=
  ∀ (board : Nat → Option Config.BoardEntry) (s : State),
    BoardRegistered board s ((s.doInit board).answer 0x00)

/-- R70: GET answers the stored state's code, `OFF` out of range, and changes nothing but `resp` (R47). -/
def Obligations.GetAnswersTheStoredState : Prop :=
  ∀ (s : State) (x : Index),
    (∀ l, s.led[x.toNat]? = some l → l.state = .off → exec (.get x) s = .next { s with resp := 0x00 }) ∧
    (∀ l, s.led[x.toNat]? = some l → l.state = .on → exec (.get x) s = .next { s with resp := 0x01 }) ∧
    (∀ l, s.led[x.toNat]? = some l → l.state = .blink → exec (.get x) s = .next { s with resp := 0x02 }) ∧
    (4 ≤ x.toNat → exec (.get x) s = .next { s with resp := 0x00 })

/-! ## The state-setting commands -/

/-- R94 (with R88 to R93): SETSTATE is the primitive on its own operands. -/
def Obligations.SetstateIsThePrimitive : Prop :=
  ∀ (s : State) (x : Index) (st : LedState) (m r : Half),
    ∃ t, exec (.setstate x st m r) s = .next t ∧ Primitive x.toNat st m r s t

/-- R90: a request equal to the stored triple, as passed, answers `OK` and changes nothing else, whichever command makes
it; any other request of a valid index writes the pin. -/
def Obligations.EqualRequestIsANoOp : Prop :=
  ∀ (s : State) (x : Index) (l : LedSlot), s.led[x.toNat]? = some l → l.registered = true →
    exec (.setstate x l.state l.slotsMask l.repeats) s = .next { s with resp := 0x00 } ∧
    (∀ st, st ≠ .blink → (st, (0 : Half), (0 : Half)) = (l.state, l.slotsMask, l.repeats) →
      exec (.set x st) s = .next { s with resp := 0x00 }) ∧
    ((.blink, Config.defaultMask, (0xFFFF : Half)) = (l.state, l.slotsMask, l.repeats) →
      exec (.set x .blink) s = .next { s with resp := 0x00 }) ∧
    (l.state = .blink → l.repeats ≠ 0 → exec (.blink x l.slotsMask l.repeats) s = .next { s with resp := 0x00 }) ∧
    (l.state = .blink → l.repeats = 0xFFFF → exec (.blink x l.slotsMask 0) s = .next { s with resp := 0x00 }) ∧
    (∀ (st : LedState) (m r : Half) (t : State), (st, m, r) ≠ (l.state, l.slotsMask, l.repeats) →
      exec (.setstate x st m r) s = .next t → ∃ c, t.gpioTrace = s.gpioTrace ++ [c])

/-- R95: SET is the primitive on the default pattern for ever for BLINK, on mask 0 and repeat 0 otherwise. -/
def Obligations.SetUsesTheDefaults : Prop :=
  ∀ (s : State) (x : Index),
    (∃ t, exec (.set x .blink) s = .next t ∧ Primitive x.toNat .blink Config.defaultMask 0xFFFF s t) ∧
    (∃ t, exec (.set x .on) s = .next t ∧ Primitive x.toNat .on 0 0 s t) ∧
    (∃ t, exec (.set x .off) s = .next t ∧ Primitive x.toNat .off 0 0 s t)

/-- R96: BLINK is the primitive on its mask and count, a count of 0 meaning for ever. -/
def Obligations.BlinkCountZeroIsForever : Prop :=
  ∀ (s : State) (x : Index) (m : Half),
    (∃ t, exec (.blink x m 0) s = .next t ∧ Primitive x.toNat .blink m 0xFFFF s t) ∧
    (∀ c : Half, c ≠ 0 → ∃ t, exec (.blink x m c) s = .next t ∧ Primitive x.toNat .blink m c s t)

/-- R97: TOGGLE sends OFF to ON, ON to OFF and BLINK to ON, always by the full path; a bad index is `ERR_INDEX`. -/
def Obligations.ToggleFlipsAndLightsABlinker : Prop :=
  ∀ (s : State) (x : Index),
    (∀ l, s.led[x.toNat]? = some l → l.registered = true → l.state = .on →
      ∃ t, exec (.toggle x) s = .next t ∧ FullPath x.toNat l .off 0 0 s t) ∧
    (∀ l, s.led[x.toNat]? = some l → l.registered = true → l.state ≠ .on →
      ∃ t, exec (.toggle x) s = .next t ∧ FullPath x.toNat l .on 0 0 s t) ∧
    (∀ l, s.led[x.toNat]? = some l → l.registered = false → exec (.toggle x) s = .next { s with resp := 0xFF }) ∧
    (s.led[x.toNat]? = none → exec (.toggle x) s = .next { s with resp := 0xFF })

/-- R16: the polarity table, whole. -/
def Obligations.PolarityTable : Prop :=
  levelFor .off 0 = 1 ∧ levelFor .off 1 = 0 ∧ levelFor .on 0 = 0 ∧ levelFor .on 1 = 1

/-! ## The pads -/

/-- R33: `set_pin` gives the pad the level, `toggle_pin` inverts it, and no other pad changes. -/
def Obligations.GpioCommandsDriveOnePad : Prop :=
  ∀ (ps : Pads) (p n : Half) (v : Bit),
    Pads.level (Pads.apply ps (.set p n v)) p n = v ∧
    Pads.level (Pads.apply ps (.toggle p n)) p n = 1 - Pads.level ps p n ∧
    (∀ p' n', (p', n') ≠ (p, n) →
      Pads.level (Pads.apply ps (.set p n v)) p' n' = Pads.level ps p' n' ∧
      Pads.level (Pads.apply ps (.toggle p n)) p' n' = Pads.level ps p' n')

/-- R32 with R33: a step other than RESET only appends to the trace, and the pads are those before it with the
appended commands applied in order. -/
def Obligations.TraceExplainsThePads : Prop :=
  ∀ (i : Instr) (s t : State), i ≠ .reset → exec i s = .next t →
    ∃ cmds, t.gpioTrace = s.gpioTrace ++ cmds ∧ t.pad = cmds.foldl Pads.apply s.pad

/-! ## The timer and its events -/

/-- R76: the net effect of `tim_enable`; the interrupt line, the LEDs and the outputs are not touched. -/
def Obligations.TimEnableNetEffect : Prop :=
  ∀ s : State, TimerStarted s.timEnable ∧ SameIrqAndInputs s s.timEnable ∧
    s.timEnable.led = s.led ∧ s.timEnable.gpioTrace = s.gpioTrace ∧ s.timEnable.pad = s.pad ∧
    s.timEnable.resp = s.resp

/-- R82: `tim_disable` stops the counter and does nothing else. -/
def Obligations.TimDisableOnlyStopsTheCounter : Prop :=
  ∀ s : State, s.timDisable = { s with timRun := false }

/-- R84: OVERFLOW sets the flag of a running timer and nothing else; of a stopped timer it is ignored. -/
def Obligations.OverflowSetsTheFlag : Prop :=
  ∀ s : State,
    (s.timRun = true → exec .overflow s = .next { s with timOvf := true }) ∧
    (s.timRun = false → exec .overflow s = .next s)

/-- R86: OTHERFLAG sets the other status flag while the timer's clock is on; that a pulse with the clock off is ignored
is the spec's list E5 of `93_implementation_defined.md`. -/
def Obligations.OtherflagSetsTheOtherFlag : Prop :=
  ∀ s : State,
    (s.timClkEn = true → exec .otherflag s = .next { s with timSrOther := true }) ∧
    (s.timClkEn = false → exec .otherflag s = .next s)

/-- R85: a second OVERFLOW before the ISR merges with the first. -/
def Obligations.UnservedOverflowsMerge : Prop :=
  ∀ s t u : State, exec .overflow s = .next t → exec .overflow t = .next u → u = t

/-! ## The slot advance -/

/-- R102 to R109: an ISR whose guard (R101) holds and that finds the overflow flag set advances the slot counter and
every LED; one that finds it clear only clears the flags. -/
def Obligations.IsrAdvancesEveryLed : Prop :=
  ∀ s : State, s.irqEn = true →
    (s.timOvf = true → (s.timOvfIe = true ∨ s.timSrOther = true) → ∃ t, exec .isr s = .next t ∧ Advanced s t) ∧
    (s.timOvf = false → s.timSrOther = true →
      exec .isr s = .next { s with timOvf := false, timSrOther := false })

/-- R101's guard false: no run of the handler. That such an instant leaves the state as it is, is the model's choice
(log entry 11). -/
def Obligations.IsrWaitsForItsGuard : Prop :=
  ∀ s : State, ¬ (s.irqEn = true ∧ ((s.timOvf = true ∧ s.timOvfIe = true) ∨ s.timSrOther = true)) →
    exec .isr s = .next s

/-- R110: the ISR does not arbitrate the timer; it never writes `tim_run`, the timer's configuration or the interrupt
line (R126). -/
def Obligations.IsrNeverWritesTheTimerControl : Prop :=
  ∀ s t : State, exec .isr s = .next t →
    t.timRun = s.timRun ∧ t.timClkEn = s.timClkEn ∧ t.timLpclkEn = s.timLpclkEn ∧ t.timOvfIe = s.timOvfIe ∧
    t.timCfg = s.timCfg ∧ t.irqEn = s.irqEn ∧ t.irqPrio = s.irqPrio

/-- R111: a tick, OVERFLOW then ISR with nothing between, is one slot advance. -/
def Obligations.TickIsOneSlotAdvance : Prop :=
  ∀ (s : State) (rest : List Instant), Ticking s → s.inputs = ticks 1 ++ rest →
    ∃ t, core.run 2 s = .next t ∧ Advanced { s with inputs := rest } t

/-- R108: a LED with a non-zero mask and a positive count `n` stays in BLINK, its count falling by one a tick, for
`n - 1` ticks, and is `(OFF, 0, 0)` after the `n`-th, whatever `current_slot` was and whatever the other LEDs do. -/
def Obligations.CountExpiresOnItsLastTick : Prop :=
  ∀ (n : Nat) (s : State) (rest : List Instant) (i : Nat) (l : LedSlot), 1 ≤ n → n ≤ 32767 → Ticking s →
    s.led[i]? = some l → l.registered = true → l.state = .blink → l.slotsMask ≠ 0 → l.repeats = BitVec.ofNat 16 n →
    s.inputs = ticks n ++ rest →
    (∀ k, k < n → ∃ t, core.run (2 * k) s = .next t ∧
      t.led[i]? = some { l with repeats := BitVec.ofNat 16 (n - k) }) ∧
    (∃ t, core.run (2 * n) s = .next t ∧
      t.led[i]? = some { l with state := .off, slotsMask := 0, repeats := 0 } ∧ t.timRun = true)

/-- The source's property V5, by R107: a LED that repeats for ever is never decremented, after any number of ticks. -/
def Obligations.ForeverNeverExpires : Prop :=
  ∀ (n : Nat) (s : State) (rest : List Instant) (i : Nat) (l : LedSlot), Ticking s →
    s.led[i]? = some l → l.repeats = 0xFFFF → s.inputs = ticks n ++ rest →
    ∃ t, core.run (2 * n) s = .next t ∧ t.led[i]? = some l ∧ t.inputs = rest

/-! ## Invariants every step keeps -/

/-- R34: the mask and repeat of a LED not in BLINK are 0. -/
def Obligations.StepKeepsPlainStatesEmpty : Prop :=
  ∀ s t : State, PlainStatesEmpty s → step s = .next t → PlainStatesEmpty t

/-- R35: a registered LED in BLINK has the timer running. -/
def Obligations.StepKeepsBlinkNeedsTimer : Prop :=
  ∀ s t : State, BlinkNeedsTimer s → step s = .next t → BlinkNeedsTimer t

/-- R37: an unregistered slot is inert. -/
def Obligations.StepKeepsUnregisteredInert : Prop :=
  ∀ s t : State, UnregisteredInert s → step s = .next t → UnregisteredInert t

/-- R33: the pad of a registered LED always has a defined level. -/
def Obligations.StepKeepsPadsDefined : Prop :=
  ∀ s t : State, PadsDefined s → step s = .next t → PadsDefined t

/-- R111's remark: `tim_run == 1` implies that the overflow interrupt is enabled and the clock is on. -/
def Obligations.StepKeepsRunningTimerEnabled : Prop :=
  ∀ s t : State, RunningTimerEnabled s → step s = .next t → RunningTimerEnabled t

/-- The pads keep the canonical form the model gives them (log entry 7). -/
def Obligations.StepKeepsPadsCanonical : Prop :=
  ∀ s t : State, Pads.wf s.pad → step s = .next t → Pads.wf t.pad

/-- R114: the pad of a LED that takes part, and whose pad no other LED shares before or after the step, follows its
pattern. The premise R35 is an invariant, stated above. -/
def Obligations.StepKeepsPadInStep : Prop :=
  ∀ (i : Nat) (s t : State), BlinkNeedsTimer s → OwnPad i s → OwnPad i t → PadInStep i s → step s = .next t →
    PadInStep i t

/-! ## Whole-machine rules -/

/-- R20: `registered` is set by registration and cleared only by RESET. -/
def Obligations.RegistrationIsPermanent : Prop :=
  ∀ (i : Instr) (s t : State) (k : Nat) (l : LedSlot), exec i s = .next t → s.led[k]? = some l →
    (i ≠ .reset → l.registered = true → ∃ l', t.led[k]? = some l' ∧ l'.registered = true) ∧
    (i ≠ .init → (∀ x p n m, i ≠ .register x p n m) → l.registered = false →
      ∃ l', t.led[k]? = some l' ∧ l'.registered = false)

/-- R13 and R15: only REGISTER, INIT and RESET write a slot's port, pin and mode. -/
def Obligations.BindingIsFixedAtRegistration : Prop :=
  ∀ (i : Instr) (s t : State) (k : Nat) (l : LedSlot), exec i s = .next t → s.led[k]? = some l →
    i ≠ .reset → i ≠ .init → (∀ x p n m, i ≠ .register x p n m) →
    ∃ l', t.led[k]? = some l' ∧ l'.port = l.port ∧ l'.pin = l.pin ∧ l'.mode = l.mode

/-- R28: only INIT and RESET write the interrupt line's enable and priority. -/
def Obligations.OnlyInitAndResetWriteTheIrq : Prop :=
  ∀ (i : Instr) (s t : State), exec i s = .next t → i ≠ .init → i ≠ .reset →
    t.irqEn = s.irqEn ∧ t.irqPrio = s.irqPrio

/-- R78: `tim_enable` sets both clock gating bits, and no step but RESET clears them. -/
def Obligations.OnlyResetStopsTheClock : Prop :=
  (∀ s : State, s.timEnable.timClkEn = true ∧ s.timEnable.timLpclkEn = true) ∧
  (∀ (i : Instr) (s t : State), exec i s = .next t → i ≠ .reset →
    (s.timClkEn = true → t.timClkEn = true) ∧ (s.timLpclkEn = true → t.timLpclkEn = true))

/-- R77: apart from the ISR and RESET, the slot counter is written only by a command that starts the timer, and then
to 0. -/
def Obligations.SlotCounterRestartsWithTheTimer : Prop :=
  ∀ (i : Instr) (s t : State), exec i s = .next t → i ≠ .isr → i ≠ .reset →
    (s.timRun = false → t.timRun = true → t.currentSlot = 0) ∧
    (¬ (s.timRun = false ∧ t.timRun = true) → t.currentSlot = s.currentSlot)

/-- R62 (with R98): what each command answers, and `ERR_ILLEGAL` for any illegal word. -/
def Obligations.ResponsesAreThoseOfTheTable : Prop :=
  (∀ (i : Instr) (s t : State), exec i s = .next t →
    (i = .init → t.resp = 0x00) ∧
    (∀ x p n m, i = .register x p n m → t.resp = 0x00) ∧
    (∀ x, (∃ st m r, i = .setstate x st m r) ∨ (∃ st, i = .set x st) ∨ (∃ m c, i = .blink x m c) ∨ i = .toggle x →
      (Valid s x → t.resp = 0x00) ∧ (¬ Valid s x → t.resp = 0xFF)) ∧
    (∀ x, i = .get x → t.resp = 0x00 ∨ t.resp = 0x01 ∨ t.resp = 0x02)) ∧
  (∀ (s t : State) (w : CmdWord) (e : Illegal) (rest : List Instant), s.inputs = ⟨false, .cmd w⟩ :: rest →
    decode w = .error e → step s = .next t → t.resp = 0xFE)

/-- R30: no event but RESET writes `resp`. -/
def Obligations.EventsLeaveTheResponse : Prop :=
  ∀ (i : Instr) (s t : State), exec i s = .next t → i.wellFormed = false → i ≠ .reset → t.resp = s.resp

/-- R27, R28 and R23: the timer's configuration, the interrupt priority and the low-power clock gating are read by no
rule: a step gives the same next state but for them, whatever they hold. -/
def Obligations.UnreadRegistersDoNotMatter : Prop :=
  ∀ (s t : State) (cfg : Option TimConfig) (prio : Option Nat) (lp : Bool), step s = .next t →
    ∃ (cfg' : Option TimConfig) (prio' : Option Nat) (lp' : Bool),
      step { s with timCfg := cfg, irqPrio := prio, timLpclkEn := lp } =
        .next { t with timCfg := cfg', irqPrio := prio', timLpclkEn := lp' }

/-- R140: until INIT no ISR runs: with the interrupt line disabled and the slot counter at 0, every step but INIT
leaves both so. -/
def Obligations.NoSlotAdvanceBeforeInit : Prop :=
  ∀ (i : Instr) (s t : State), exec i s = .next t → i ≠ .init → s.irqEn = false → s.currentSlot = 0 →
    t.irqEn = false ∧ t.currentSlot = 0

/-- R136: drift begins when an ISR expires the last blinking LED, or REGISTER or INIT (on whatever board profile) takes it;
it lasts through the ISR, through GET and through a short-circuited command; a command on the full path ends it. -/
def Obligations.DriftBeginsLastsAndEnds : Prop :=
  (∀ s t : State, s.timRun = true → Blinking s → exec .isr s = .next t → ¬ Blinking t → Drift t) ∧
  (∀ (s t : State) (x : Index) (p n : Half) (m : Bit), s.timRun = true → Blinking s →
    exec (.register x p n m) s = .next t → ¬ Blinking t → Drift t) ∧
  (∀ (board : Nat → Option Config.BoardEntry) (s : State), s.timRun = true → Blinking s →
    ¬ Blinking ((s.doInit board).answer 0x00) → Drift ((s.doInit board).answer 0x00)) ∧
  (∀ s t : State, Drift s → exec .isr s = .next t → Drift t) ∧
  (∀ (s t : State) (x : Index), Drift s → exec (.get x) s = .next t → Drift t) ∧
  (∀ (s t : State) (x : Index) (st : LedState) (m r : Half) (l : LedSlot), Drift s → s.led[x.toNat]? = some l →
    l.registered = true → exec (.setstate x st m r) s = .next t →
    ((st, m, r) = (l.state, l.slotsMask, l.repeats) → Drift t) ∧
    ((st, m, r) ≠ (l.state, l.slotsMask, l.repeats) → ¬ Drift t))

/-- R138: an overflow pending when a command stops the timer is still served: the ISR advances the slot counter once and
finds no LED to advance. -/
def Obligations.PendingOverflowOutlivesTheStop : Prop :=
  ∀ (s t : State) (x : Index) (l : LedSlot), s.timRun = true → s.timOvf = true → s.timOvfIe = true → s.irqEn = true →
    s.led[x.toNat]? = some l → l.registered = true → exec (.set x .off) s = .next t → t.timRun = false →
    ∃ u, exec .isr t = .next u ∧ u.currentSlot.toNat = (s.currentSlot.toNat + 1) % 16 ∧ u.led = t.led ∧
      u.gpioTrace = t.gpioTrace ∧ u.timOvf = false
end

