-- ==== Sys2Proof/Laws/PerInstr.lean ====
section
/-! SUPPORT. Statements made for every instruction, one lemma per constructor of `Instr`. -/

namespace Sys2Proof.Laws.HasWordIffCommand

/-- An instruction has a command word exactly when it is a well-formed command: an event has none (R63). -/
def Statement (i : Instr) : Prop := (encode i).isSome = i.wellFormed

theorem init : Statement .init := rfl

theorem register (index : Index) (port pin : Half) (mode : Bit) : Statement (.register index port pin mode) := rfl

theorem setstate (index : Index) (state : LedState) (mask repeats : Half) :
    Statement (.setstate index state mask repeats) := rfl

theorem set (index : Index) (state : LedState) : Statement (.set index state) := rfl

theorem blink (index : Index) (mask count : Half) : Statement (.blink index mask count) := rfl

theorem get (index : Index) : Statement (.get index) := rfl

theorem toggle (index : Index) : Statement (.toggle index) := rfl

theorem overflow : Statement .overflow := rfl

theorem otherflag : Statement .otherflag := rfl

theorem isr : Statement .isr := rfl

theorem reset : Statement .reset := rfl

end Sys2Proof.Laws.HasWordIffCommand
end

