-- ==== Sys2Proof/Laws/Codec.lean ====
section
/-! SUPPORT. The laws of the command word's fields: what each field of a built word is, and that a word is built from
its fields. -/

namespace Sys2Proof

/-- Bit `k` of a built word (R55). -/
theorem wordOf_bit (op : BitVec 4) (x : Index) (a : BitVec 8) (f1 f2 : Half) (k : Nat) :
    (wordOf op x a f1 f2).getLsbD k =
      if k < 16 then f2.getLsbD k else if k < 32 then f1.getLsbD (k - 16) else if k < 40 then a.getLsbD (k - 32)
      else if k < 44 then x.getLsbD (k - 40) else op.getLsbD (k - 44) := by
  simp only [wordOf, BitVec.getLsbD_append, Nat.sub_sub]
  by_cases h1 : k < 16
  · simp [h1]
  by_cases h2 : k < 32
  · simp [h1, h2, show k - 16 < 16 by omega]
  by_cases h3 : k < 40
  · simp [h1, h2, h3, show ¬ k - 16 < 16 by omega, show k - 32 < 8 by omega]
  by_cases h4 : k < 44
  · simp [h1, h2, h3, h4, show ¬ k - 16 < 16 by omega, show ¬ k - 32 < 8 by omega, show k - 40 < 4 by omega]
  · simp [h1, h2, h3, h4, show ¬ k - 16 < 16 by omega, show ¬ k - 32 < 8 by omega, show ¬ k - 40 < 4 by omega]

@[simp] theorem opcodeField_wordOf (op : BitVec 4) (x : Index) (a : BitVec 8) (f1 f2 : Half) :
    opcodeField (wordOf op x a f1 f2) = op := by
  apply BitVec.eq_of_getLsbD_eq
  intro k hk
  simp [opcodeField, wordOf_bit, hk, show ¬ 44 + k < 16 by omega,
    show ¬ 44 + k < 32 by omega, show ¬ 44 + k < 40 by omega]

@[simp] theorem indexField_wordOf (op : BitVec 4) (x : Index) (a : BitVec 8) (f1 f2 : Half) :
    indexField (wordOf op x a f1 f2) = x := by
  apply BitVec.eq_of_getLsbD_eq
  intro k hk
  simp [indexField, wordOf_bit, hk, show ¬ 40 + k < 16 by omega,
    show ¬ 40 + k < 32 by omega, show 40 + k < 44 by omega]

@[simp] theorem stateField_wordOf (op : BitVec 4) (x : Index) (a : BitVec 8) (f1 f2 : Half) :
    stateField (wordOf op x a f1 f2) = a.setWidth 2 := by
  apply BitVec.eq_of_getLsbD_eq
  intro k hk
  simp [stateField, wordOf_bit, hk,
    show ¬ 32 + k < 16 by omega, show 32 + k < 40 by omega]

@[simp] theorem modeField_wordOf (op : BitVec 4) (x : Index) (a : BitVec 8) (f1 f2 : Half) :
    modeField (wordOf op x a f1 f2) = a.setWidth 1 := by
  apply BitVec.eq_of_getLsbD_eq
  intro k hk
  simp [modeField, wordOf_bit, hk,
    show ¬ 32 + k < 16 by omega, show 32 + k < 40 by omega]

@[simp] theorem f1Field_wordOf (op : BitVec 4) (x : Index) (a : BitVec 8) (f1 f2 : Half) :
    f1Field (wordOf op x a f1 f2) = f1 := by
  apply BitVec.eq_of_getLsbD_eq
  intro k hk
  simp [f1Field, wordOf_bit, hk, show 16 + k < 32 by omega]

@[simp] theorem f2Field_wordOf (op : BitVec 4) (x : Index) (a : BitVec 8) (f1 f2 : Half) :
    f2Field (wordOf op x a f1 f2) = f2 := by
  apply BitVec.eq_of_getLsbD_eq
  intro k hk
  simp [f2Field, wordOf_bit, hk]

/-- A word is built from its five fields (R55). -/
theorem wordOf_fields (w : CmdWord) :
    wordOf (opcodeField w) (indexField w) (w.extractLsb' 32 8) (f1Field w) (f2Field w) = w := by
  apply BitVec.eq_of_getLsbD_eq
  intro k hk
  rw [wordOf_bit]
  simp only [opcodeField, indexField, f1Field, f2Field, BitVec.getLsbD_extractLsb']
  split
  · simp_all
  · split
    · simp [show k - 16 < 16 by omega, show 16 + (k - 16) = k by omega]
    · split
      · simp [show k - 32 < 8 by omega, show 32 + (k - 32) = k by omega]
      · split
        · simp [show k - 40 < 4 by omega, show 40 + (k - 40) = k by omega]
        · simp [show k - 44 < 4 by omega, show 44 + (k - 44) = k by omega]

/-- Words with the same fields are the same, and only those. -/
theorem wordOf_inj {op op' : BitVec 4} {x x' : Index} {a a' : BitVec 8} {f f' g g' : Half} :
    wordOf op x a f g = wordOf op' x' a' f' g' ↔ op = op' ∧ x = x' ∧ a = a' ∧ f = f' ∧ g = g' := by
  constructor
  · intro h
    refine ⟨by simpa using congrArg opcodeField h, by simpa using congrArg indexField h, ?_,
      by simpa using congrArg f1Field h, by simpa using congrArg f2Field h⟩
    apply BitVec.eq_of_getLsbD_eq
    intro k hk
    have hb := congrArg (fun w : CmdWord => w.getLsbD (k + 32)) h
    simpa [wordOf_bit, show ¬ k + 32 < 16 by omega, show k + 32 < 40 by omega] using hb
  · rintro ⟨rfl, rfl, rfl, rfl, rfl⟩
    rfl

/-- The bitwise and of two words, field by field: how the test of R57 reads a word. -/
theorem wordOf_and (op op' : BitVec 4) (x x' : Index) (a a' : BitVec 8) (f f' g g' : Half) :
    wordOf op x a f g &&& wordOf op' x' a' f' g' =
      wordOf (op &&& op') (x &&& x') (a &&& a') (f &&& f') (g &&& g') := by
  apply BitVec.eq_of_getLsbD_eq
  intro k hk
  simp only [BitVec.getLsbD_and, wordOf_bit]
  split
  · rfl
  · split
    · rfl
    · split
      · rfl
      · split <;> rfl

theorem LedState.ofCode_code (st : LedState) : LedState.ofCode st.code = some st := by cases st <;> rfl

/-- A state code stands for a state unless it is 3 (R60). -/
theorem LedState.ofCode_eq_none (c : BitVec 2) : LedState.ofCode c = none ↔ c = 3 := by
  revert c
  decide

end Sys2Proof
end

