-- ==== Sys2Proof/Laws/State.lean ====
section
/-! SUPPORT. What each named update of State leaves in each field, one lemma per field per update, so that no proof
unfolds a record update. -/

namespace Sys2Proof.Machine

/-! ## raiseOverflow -/

@[simp] theorem State.raiseOverflow_led (s : State) : s.raiseOverflow.led = s.led := rfl
@[simp] theorem State.raiseOverflow_currentSlot (s : State) : s.raiseOverflow.currentSlot = s.currentSlot := rfl
@[simp] theorem State.raiseOverflow_timRun (s : State) : s.raiseOverflow.timRun = s.timRun := rfl
@[simp] theorem State.raiseOverflow_timClkEn (s : State) : s.raiseOverflow.timClkEn = s.timClkEn := rfl
@[simp] theorem State.raiseOverflow_timLpclkEn (s : State) : s.raiseOverflow.timLpclkEn = s.timLpclkEn := rfl
@[simp] theorem State.raiseOverflow_timOvfIe (s : State) : s.raiseOverflow.timOvfIe = s.timOvfIe := rfl
@[simp] theorem State.raiseOverflow_timOvf (s : State) : s.raiseOverflow.timOvf = true := rfl
@[simp] theorem State.raiseOverflow_timSrOther (s : State) : s.raiseOverflow.timSrOther = s.timSrOther := rfl
@[simp] theorem State.raiseOverflow_timCfg (s : State) : s.raiseOverflow.timCfg = s.timCfg := rfl
@[simp] theorem State.raiseOverflow_irqEn (s : State) : s.raiseOverflow.irqEn = s.irqEn := rfl
@[simp] theorem State.raiseOverflow_irqPrio (s : State) : s.raiseOverflow.irqPrio = s.irqPrio := rfl
@[simp] theorem State.raiseOverflow_resp (s : State) : s.raiseOverflow.resp = s.resp := rfl
@[simp] theorem State.raiseOverflow_gpioTrace (s : State) : s.raiseOverflow.gpioTrace = s.gpioTrace := rfl
@[simp] theorem State.raiseOverflow_pad (s : State) : s.raiseOverflow.pad = s.pad := rfl
@[simp] theorem State.raiseOverflow_inputs (s : State) : s.raiseOverflow.inputs = s.inputs := rfl

/-! ## raiseOther -/

@[simp] theorem State.raiseOther_led (s : State) : s.raiseOther.led = s.led := rfl
@[simp] theorem State.raiseOther_currentSlot (s : State) : s.raiseOther.currentSlot = s.currentSlot := rfl
@[simp] theorem State.raiseOther_timRun (s : State) : s.raiseOther.timRun = s.timRun := rfl
@[simp] theorem State.raiseOther_timClkEn (s : State) : s.raiseOther.timClkEn = s.timClkEn := rfl
@[simp] theorem State.raiseOther_timLpclkEn (s : State) : s.raiseOther.timLpclkEn = s.timLpclkEn := rfl
@[simp] theorem State.raiseOther_timOvfIe (s : State) : s.raiseOther.timOvfIe = s.timOvfIe := rfl
@[simp] theorem State.raiseOther_timOvf (s : State) : s.raiseOther.timOvf = s.timOvf := rfl
@[simp] theorem State.raiseOther_timSrOther (s : State) : s.raiseOther.timSrOther = true := rfl
@[simp] theorem State.raiseOther_timCfg (s : State) : s.raiseOther.timCfg = s.timCfg := rfl
@[simp] theorem State.raiseOther_irqEn (s : State) : s.raiseOther.irqEn = s.irqEn := rfl
@[simp] theorem State.raiseOther_irqPrio (s : State) : s.raiseOther.irqPrio = s.irqPrio := rfl
@[simp] theorem State.raiseOther_resp (s : State) : s.raiseOther.resp = s.resp := rfl
@[simp] theorem State.raiseOther_gpioTrace (s : State) : s.raiseOther.gpioTrace = s.gpioTrace := rfl
@[simp] theorem State.raiseOther_pad (s : State) : s.raiseOther.pad = s.pad := rfl
@[simp] theorem State.raiseOther_inputs (s : State) : s.raiseOther.inputs = s.inputs := rfl

/-! ## clearFlags -/

@[simp] theorem State.clearFlags_led (s : State) : s.clearFlags.led = s.led := rfl
@[simp] theorem State.clearFlags_currentSlot (s : State) : s.clearFlags.currentSlot = s.currentSlot := rfl
@[simp] theorem State.clearFlags_timRun (s : State) : s.clearFlags.timRun = s.timRun := rfl
@[simp] theorem State.clearFlags_timClkEn (s : State) : s.clearFlags.timClkEn = s.timClkEn := rfl
@[simp] theorem State.clearFlags_timLpclkEn (s : State) : s.clearFlags.timLpclkEn = s.timLpclkEn := rfl
@[simp] theorem State.clearFlags_timOvfIe (s : State) : s.clearFlags.timOvfIe = s.timOvfIe := rfl
@[simp] theorem State.clearFlags_timOvf (s : State) : s.clearFlags.timOvf = false := rfl
@[simp] theorem State.clearFlags_timSrOther (s : State) : s.clearFlags.timSrOther = false := rfl
@[simp] theorem State.clearFlags_timCfg (s : State) : s.clearFlags.timCfg = s.timCfg := rfl
@[simp] theorem State.clearFlags_irqEn (s : State) : s.clearFlags.irqEn = s.irqEn := rfl
@[simp] theorem State.clearFlags_irqPrio (s : State) : s.clearFlags.irqPrio = s.irqPrio := rfl
@[simp] theorem State.clearFlags_resp (s : State) : s.clearFlags.resp = s.resp := rfl
@[simp] theorem State.clearFlags_gpioTrace (s : State) : s.clearFlags.gpioTrace = s.gpioTrace := rfl
@[simp] theorem State.clearFlags_pad (s : State) : s.clearFlags.pad = s.pad := rfl
@[simp] theorem State.clearFlags_inputs (s : State) : s.clearFlags.inputs = s.inputs := rfl

/-! ## emit -/

@[simp] theorem State.emit_led (s : State) (c : GpioCmd) : (s.emit c).led = s.led := rfl
@[simp] theorem State.emit_currentSlot (s : State) (c : GpioCmd) : (s.emit c).currentSlot = s.currentSlot := rfl
@[simp] theorem State.emit_timRun (s : State) (c : GpioCmd) : (s.emit c).timRun = s.timRun := rfl
@[simp] theorem State.emit_timClkEn (s : State) (c : GpioCmd) : (s.emit c).timClkEn = s.timClkEn := rfl
@[simp] theorem State.emit_timLpclkEn (s : State) (c : GpioCmd) : (s.emit c).timLpclkEn = s.timLpclkEn := rfl
@[simp] theorem State.emit_timOvfIe (s : State) (c : GpioCmd) : (s.emit c).timOvfIe = s.timOvfIe := rfl
@[simp] theorem State.emit_timOvf (s : State) (c : GpioCmd) : (s.emit c).timOvf = s.timOvf := rfl
@[simp] theorem State.emit_timSrOther (s : State) (c : GpioCmd) : (s.emit c).timSrOther = s.timSrOther := rfl
@[simp] theorem State.emit_timCfg (s : State) (c : GpioCmd) : (s.emit c).timCfg = s.timCfg := rfl
@[simp] theorem State.emit_irqEn (s : State) (c : GpioCmd) : (s.emit c).irqEn = s.irqEn := rfl
@[simp] theorem State.emit_irqPrio (s : State) (c : GpioCmd) : (s.emit c).irqPrio = s.irqPrio := rfl
@[simp] theorem State.emit_resp (s : State) (c : GpioCmd) : (s.emit c).resp = s.resp := rfl
@[simp] theorem State.emit_gpioTrace (s : State) (c : GpioCmd) : (s.emit c).gpioTrace = s.gpioTrace ++ [c] := rfl
@[simp] theorem State.emit_pad (s : State) (c : GpioCmd) : (s.emit c).pad = Pads.apply s.pad c := rfl
@[simp] theorem State.emit_inputs (s : State) (c : GpioCmd) : (s.emit c).inputs = s.inputs := rfl

/-! ## gpioSet -/

@[simp] theorem State.gpioSet_led (s : State) (p n : Half) (v : Bit) : (s.gpioSet p n v).led = s.led := rfl
@[simp] theorem State.gpioSet_currentSlot (s : State) (p n : Half) (v : Bit) : (s.gpioSet p n v).currentSlot = s.currentSlot := rfl
@[simp] theorem State.gpioSet_timRun (s : State) (p n : Half) (v : Bit) : (s.gpioSet p n v).timRun = s.timRun := rfl
@[simp] theorem State.gpioSet_timClkEn (s : State) (p n : Half) (v : Bit) : (s.gpioSet p n v).timClkEn = s.timClkEn := rfl
@[simp] theorem State.gpioSet_timLpclkEn (s : State) (p n : Half) (v : Bit) : (s.gpioSet p n v).timLpclkEn = s.timLpclkEn := rfl
@[simp] theorem State.gpioSet_timOvfIe (s : State) (p n : Half) (v : Bit) : (s.gpioSet p n v).timOvfIe = s.timOvfIe := rfl
@[simp] theorem State.gpioSet_timOvf (s : State) (p n : Half) (v : Bit) : (s.gpioSet p n v).timOvf = s.timOvf := rfl
@[simp] theorem State.gpioSet_timSrOther (s : State) (p n : Half) (v : Bit) : (s.gpioSet p n v).timSrOther = s.timSrOther := rfl
@[simp] theorem State.gpioSet_timCfg (s : State) (p n : Half) (v : Bit) : (s.gpioSet p n v).timCfg = s.timCfg := rfl
@[simp] theorem State.gpioSet_irqEn (s : State) (p n : Half) (v : Bit) : (s.gpioSet p n v).irqEn = s.irqEn := rfl
@[simp] theorem State.gpioSet_irqPrio (s : State) (p n : Half) (v : Bit) : (s.gpioSet p n v).irqPrio = s.irqPrio := rfl
@[simp] theorem State.gpioSet_resp (s : State) (p n : Half) (v : Bit) : (s.gpioSet p n v).resp = s.resp := rfl
@[simp] theorem State.gpioSet_gpioTrace (s : State) (p n : Half) (v : Bit) : (s.gpioSet p n v).gpioTrace = s.gpioTrace ++ [.set p n v] := rfl
@[simp] theorem State.gpioSet_pad (s : State) (p n : Half) (v : Bit) : (s.gpioSet p n v).pad = Pads.apply s.pad (.set p n v) := rfl
@[simp] theorem State.gpioSet_inputs (s : State) (p n : Half) (v : Bit) : (s.gpioSet p n v).inputs = s.inputs := rfl

/-! ## gpioToggle -/

@[simp] theorem State.gpioToggle_led (s : State) (p n : Half) : (s.gpioToggle p n).led = s.led := rfl
@[simp] theorem State.gpioToggle_currentSlot (s : State) (p n : Half) : (s.gpioToggle p n).currentSlot = s.currentSlot := rfl
@[simp] theorem State.gpioToggle_timRun (s : State) (p n : Half) : (s.gpioToggle p n).timRun = s.timRun := rfl
@[simp] theorem State.gpioToggle_timClkEn (s : State) (p n : Half) : (s.gpioToggle p n).timClkEn = s.timClkEn := rfl
@[simp] theorem State.gpioToggle_timLpclkEn (s : State) (p n : Half) : (s.gpioToggle p n).timLpclkEn = s.timLpclkEn := rfl
@[simp] theorem State.gpioToggle_timOvfIe (s : State) (p n : Half) : (s.gpioToggle p n).timOvfIe = s.timOvfIe := rfl
@[simp] theorem State.gpioToggle_timOvf (s : State) (p n : Half) : (s.gpioToggle p n).timOvf = s.timOvf := rfl
@[simp] theorem State.gpioToggle_timSrOther (s : State) (p n : Half) : (s.gpioToggle p n).timSrOther = s.timSrOther := rfl
@[simp] theorem State.gpioToggle_timCfg (s : State) (p n : Half) : (s.gpioToggle p n).timCfg = s.timCfg := rfl
@[simp] theorem State.gpioToggle_irqEn (s : State) (p n : Half) : (s.gpioToggle p n).irqEn = s.irqEn := rfl
@[simp] theorem State.gpioToggle_irqPrio (s : State) (p n : Half) : (s.gpioToggle p n).irqPrio = s.irqPrio := rfl
@[simp] theorem State.gpioToggle_resp (s : State) (p n : Half) : (s.gpioToggle p n).resp = s.resp := rfl
@[simp] theorem State.gpioToggle_gpioTrace (s : State) (p n : Half) : (s.gpioToggle p n).gpioTrace = s.gpioTrace ++ [.toggle p n] := rfl
@[simp] theorem State.gpioToggle_pad (s : State) (p n : Half) : (s.gpioToggle p n).pad = Pads.apply s.pad (.toggle p n) := rfl
@[simp] theorem State.gpioToggle_inputs (s : State) (p n : Half) : (s.gpioToggle p n).inputs = s.inputs := rfl

/-! ## setSlot -/

@[simp] theorem State.setSlot_led (s : State) (i : Nat) (l : LedSlot) : (s.setSlot i l).led = s.led.setIfInBounds i l := rfl
@[simp] theorem State.setSlot_currentSlot (s : State) (i : Nat) (l : LedSlot) : (s.setSlot i l).currentSlot = s.currentSlot := rfl
@[simp] theorem State.setSlot_timRun (s : State) (i : Nat) (l : LedSlot) : (s.setSlot i l).timRun = s.timRun := rfl
@[simp] theorem State.setSlot_timClkEn (s : State) (i : Nat) (l : LedSlot) : (s.setSlot i l).timClkEn = s.timClkEn := rfl
@[simp] theorem State.setSlot_timLpclkEn (s : State) (i : Nat) (l : LedSlot) : (s.setSlot i l).timLpclkEn = s.timLpclkEn := rfl
@[simp] theorem State.setSlot_timOvfIe (s : State) (i : Nat) (l : LedSlot) : (s.setSlot i l).timOvfIe = s.timOvfIe := rfl
@[simp] theorem State.setSlot_timOvf (s : State) (i : Nat) (l : LedSlot) : (s.setSlot i l).timOvf = s.timOvf := rfl
@[simp] theorem State.setSlot_timSrOther (s : State) (i : Nat) (l : LedSlot) : (s.setSlot i l).timSrOther = s.timSrOther := rfl
@[simp] theorem State.setSlot_timCfg (s : State) (i : Nat) (l : LedSlot) : (s.setSlot i l).timCfg = s.timCfg := rfl
@[simp] theorem State.setSlot_irqEn (s : State) (i : Nat) (l : LedSlot) : (s.setSlot i l).irqEn = s.irqEn := rfl
@[simp] theorem State.setSlot_irqPrio (s : State) (i : Nat) (l : LedSlot) : (s.setSlot i l).irqPrio = s.irqPrio := rfl
@[simp] theorem State.setSlot_resp (s : State) (i : Nat) (l : LedSlot) : (s.setSlot i l).resp = s.resp := rfl
@[simp] theorem State.setSlot_gpioTrace (s : State) (i : Nat) (l : LedSlot) : (s.setSlot i l).gpioTrace = s.gpioTrace := rfl
@[simp] theorem State.setSlot_pad (s : State) (i : Nat) (l : LedSlot) : (s.setSlot i l).pad = s.pad := rfl
@[simp] theorem State.setSlot_inputs (s : State) (i : Nat) (l : LedSlot) : (s.setSlot i l).inputs = s.inputs := rfl

/-! ## answer -/

@[simp] theorem State.answer_led (s : State) (v : Resp) : (s.answer v).led = s.led := rfl
@[simp] theorem State.answer_currentSlot (s : State) (v : Resp) : (s.answer v).currentSlot = s.currentSlot := rfl
@[simp] theorem State.answer_timRun (s : State) (v : Resp) : (s.answer v).timRun = s.timRun := rfl
@[simp] theorem State.answer_timClkEn (s : State) (v : Resp) : (s.answer v).timClkEn = s.timClkEn := rfl
@[simp] theorem State.answer_timLpclkEn (s : State) (v : Resp) : (s.answer v).timLpclkEn = s.timLpclkEn := rfl
@[simp] theorem State.answer_timOvfIe (s : State) (v : Resp) : (s.answer v).timOvfIe = s.timOvfIe := rfl
@[simp] theorem State.answer_timOvf (s : State) (v : Resp) : (s.answer v).timOvf = s.timOvf := rfl
@[simp] theorem State.answer_timSrOther (s : State) (v : Resp) : (s.answer v).timSrOther = s.timSrOther := rfl
@[simp] theorem State.answer_timCfg (s : State) (v : Resp) : (s.answer v).timCfg = s.timCfg := rfl
@[simp] theorem State.answer_irqEn (s : State) (v : Resp) : (s.answer v).irqEn = s.irqEn := rfl
@[simp] theorem State.answer_irqPrio (s : State) (v : Resp) : (s.answer v).irqPrio = s.irqPrio := rfl
@[simp] theorem State.answer_resp (s : State) (v : Resp) : (s.answer v).resp = v := rfl
@[simp] theorem State.answer_gpioTrace (s : State) (v : Resp) : (s.answer v).gpioTrace = s.gpioTrace := rfl
@[simp] theorem State.answer_pad (s : State) (v : Resp) : (s.answer v).pad = s.pad := rfl
@[simp] theorem State.answer_inputs (s : State) (v : Resp) : (s.answer v).inputs = s.inputs := rfl

/-! ## timEnable -/

@[simp] theorem State.timEnable_led (s : State) : s.timEnable.led = s.led := rfl
@[simp] theorem State.timEnable_currentSlot (s : State) : s.timEnable.currentSlot = 0 := rfl
@[simp] theorem State.timEnable_timRun (s : State) : s.timEnable.timRun = true := rfl
@[simp] theorem State.timEnable_timClkEn (s : State) : s.timEnable.timClkEn = true := rfl
@[simp] theorem State.timEnable_timLpclkEn (s : State) : s.timEnable.timLpclkEn = true := rfl
@[simp] theorem State.timEnable_timOvfIe (s : State) : s.timEnable.timOvfIe = true := rfl
@[simp] theorem State.timEnable_timOvf (s : State) : s.timEnable.timOvf = false := rfl
@[simp] theorem State.timEnable_timSrOther (s : State) : s.timEnable.timSrOther = false := rfl
@[simp] theorem State.timEnable_timCfg (s : State) : s.timEnable.timCfg = some enabledConfig := rfl
@[simp] theorem State.timEnable_irqEn (s : State) : s.timEnable.irqEn = s.irqEn := rfl
@[simp] theorem State.timEnable_irqPrio (s : State) : s.timEnable.irqPrio = s.irqPrio := rfl
@[simp] theorem State.timEnable_resp (s : State) : s.timEnable.resp = s.resp := rfl
@[simp] theorem State.timEnable_gpioTrace (s : State) : s.timEnable.gpioTrace = s.gpioTrace := rfl
@[simp] theorem State.timEnable_pad (s : State) : s.timEnable.pad = s.pad := rfl
@[simp] theorem State.timEnable_inputs (s : State) : s.timEnable.inputs = s.inputs := rfl

/-! ## timDisable -/

@[simp] theorem State.timDisable_led (s : State) : s.timDisable.led = s.led := rfl
@[simp] theorem State.timDisable_currentSlot (s : State) : s.timDisable.currentSlot = s.currentSlot := rfl
@[simp] theorem State.timDisable_timRun (s : State) : s.timDisable.timRun = false := rfl
@[simp] theorem State.timDisable_timClkEn (s : State) : s.timDisable.timClkEn = s.timClkEn := rfl
@[simp] theorem State.timDisable_timLpclkEn (s : State) : s.timDisable.timLpclkEn = s.timLpclkEn := rfl
@[simp] theorem State.timDisable_timOvfIe (s : State) : s.timDisable.timOvfIe = s.timOvfIe := rfl
@[simp] theorem State.timDisable_timOvf (s : State) : s.timDisable.timOvf = s.timOvf := rfl
@[simp] theorem State.timDisable_timSrOther (s : State) : s.timDisable.timSrOther = s.timSrOther := rfl
@[simp] theorem State.timDisable_timCfg (s : State) : s.timDisable.timCfg = s.timCfg := rfl
@[simp] theorem State.timDisable_irqEn (s : State) : s.timDisable.irqEn = s.irqEn := rfl
@[simp] theorem State.timDisable_irqPrio (s : State) : s.timDisable.irqPrio = s.irqPrio := rfl
@[simp] theorem State.timDisable_resp (s : State) : s.timDisable.resp = s.resp := rfl
@[simp] theorem State.timDisable_gpioTrace (s : State) : s.timDisable.gpioTrace = s.gpioTrace := rfl
@[simp] theorem State.timDisable_pad (s : State) : s.timDisable.pad = s.pad := rfl
@[simp] theorem State.timDisable_inputs (s : State) : s.timDisable.inputs = s.inputs := rfl

/-! ## bumpSlot -/

@[simp] theorem State.bumpSlot_led (s : State) : s.bumpSlot.led = s.led := rfl
@[simp] theorem State.bumpSlot_currentSlot (s : State) : s.bumpSlot.currentSlot = s.currentSlot + 1 := rfl
@[simp] theorem State.bumpSlot_timRun (s : State) : s.bumpSlot.timRun = s.timRun := rfl
@[simp] theorem State.bumpSlot_timClkEn (s : State) : s.bumpSlot.timClkEn = s.timClkEn := rfl
@[simp] theorem State.bumpSlot_timLpclkEn (s : State) : s.bumpSlot.timLpclkEn = s.timLpclkEn := rfl
@[simp] theorem State.bumpSlot_timOvfIe (s : State) : s.bumpSlot.timOvfIe = s.timOvfIe := rfl
@[simp] theorem State.bumpSlot_timOvf (s : State) : s.bumpSlot.timOvf = s.timOvf := rfl
@[simp] theorem State.bumpSlot_timSrOther (s : State) : s.bumpSlot.timSrOther = s.timSrOther := rfl
@[simp] theorem State.bumpSlot_timCfg (s : State) : s.bumpSlot.timCfg = s.timCfg := rfl
@[simp] theorem State.bumpSlot_irqEn (s : State) : s.bumpSlot.irqEn = s.irqEn := rfl
@[simp] theorem State.bumpSlot_irqPrio (s : State) : s.bumpSlot.irqPrio = s.irqPrio := rfl
@[simp] theorem State.bumpSlot_resp (s : State) : s.bumpSlot.resp = s.resp := rfl
@[simp] theorem State.bumpSlot_gpioTrace (s : State) : s.bumpSlot.gpioTrace = s.gpioTrace := rfl
@[simp] theorem State.bumpSlot_pad (s : State) : s.bumpSlot.pad = s.pad := rfl
@[simp] theorem State.bumpSlot_inputs (s : State) : s.bumpSlot.inputs = s.inputs := rfl

/-! ## consume -/

@[simp] theorem State.consume_led (s : State) : s.consume.led = s.led := rfl
@[simp] theorem State.consume_currentSlot (s : State) : s.consume.currentSlot = s.currentSlot := rfl
@[simp] theorem State.consume_timRun (s : State) : s.consume.timRun = s.timRun := rfl
@[simp] theorem State.consume_timClkEn (s : State) : s.consume.timClkEn = s.timClkEn := rfl
@[simp] theorem State.consume_timLpclkEn (s : State) : s.consume.timLpclkEn = s.timLpclkEn := rfl
@[simp] theorem State.consume_timOvfIe (s : State) : s.consume.timOvfIe = s.timOvfIe := rfl
@[simp] theorem State.consume_timOvf (s : State) : s.consume.timOvf = s.timOvf := rfl
@[simp] theorem State.consume_timSrOther (s : State) : s.consume.timSrOther = s.timSrOther := rfl
@[simp] theorem State.consume_timCfg (s : State) : s.consume.timCfg = s.timCfg := rfl
@[simp] theorem State.consume_irqEn (s : State) : s.consume.irqEn = s.irqEn := rfl
@[simp] theorem State.consume_irqPrio (s : State) : s.consume.irqPrio = s.irqPrio := rfl
@[simp] theorem State.consume_resp (s : State) : s.consume.resp = s.resp := rfl
@[simp] theorem State.consume_gpioTrace (s : State) : s.consume.gpioTrace = s.gpioTrace := rfl
@[simp] theorem State.consume_pad (s : State) : s.consume.pad = s.pad := rfl
@[simp] theorem State.consume_inputs (s : State) : s.consume.inputs = s.inputs.tail := rfl

/-! ## present -/

@[simp] theorem State.present_led (s : State) (w : CmdWord) : (s.present w).led = s.led := rfl
@[simp] theorem State.present_currentSlot (s : State) (w : CmdWord) : (s.present w).currentSlot = s.currentSlot := rfl
@[simp] theorem State.present_timRun (s : State) (w : CmdWord) : (s.present w).timRun = s.timRun := rfl
@[simp] theorem State.present_timClkEn (s : State) (w : CmdWord) : (s.present w).timClkEn = s.timClkEn := rfl
@[simp] theorem State.present_timLpclkEn (s : State) (w : CmdWord) : (s.present w).timLpclkEn = s.timLpclkEn := rfl
@[simp] theorem State.present_timOvfIe (s : State) (w : CmdWord) : (s.present w).timOvfIe = s.timOvfIe := rfl
@[simp] theorem State.present_timOvf (s : State) (w : CmdWord) : (s.present w).timOvf = s.timOvf := rfl
@[simp] theorem State.present_timSrOther (s : State) (w : CmdWord) : (s.present w).timSrOther = s.timSrOther := rfl
@[simp] theorem State.present_timCfg (s : State) (w : CmdWord) : (s.present w).timCfg = s.timCfg := rfl
@[simp] theorem State.present_irqEn (s : State) (w : CmdWord) : (s.present w).irqEn = s.irqEn := rfl
@[simp] theorem State.present_irqPrio (s : State) (w : CmdWord) : (s.present w).irqPrio = s.irqPrio := rfl
@[simp] theorem State.present_resp (s : State) (w : CmdWord) : (s.present w).resp = s.resp := rfl
@[simp] theorem State.present_gpioTrace (s : State) (w : CmdWord) : (s.present w).gpioTrace = s.gpioTrace := rfl
@[simp] theorem State.present_pad (s : State) (w : CmdWord) : (s.present w).pad = s.pad := rfl
@[simp] theorem State.present_inputs (s : State) (w : CmdWord) : (s.present w).inputs = ⟨false, .cmd w⟩ :: s.inputs := rfl

/-! ## Operations that are another update under a name of their own -/

@[simp] theorem State.answerIllegal_eq (s : State) : s.answerIllegal = s.answer Config.respErrIllegal := rfl

@[simp] theorem State.enterInterrupt_eq (s : State) : s.enterInterrupt = s := rfl

@[simp] theorem State.leaveInterrupt_eq (s : State) : s.leaveInterrupt = s.clearFlags := rfl

@[simp] theorem State.timIsEnabled_eq (s : State) : s.timIsEnabled = s.timRun := rfl

@[simp] theorem State.slotAt_eq (s : State) (i : Nat) : s.slotAt i = s.led[i]? := rfl

theorem State.padLevel_eq (s : State) (p n : Half) : s.padLevel p n = Pads.level s.pad p n := rfl

end Sys2Proof.Machine
end

