-- ==== Sys2Proof/Laws/Pads.lean ====
section
/-! SUPPORT. The laws of the pads: read after write, other pads unchanged, and the canonical form kept. -/

namespace Sys2Proof.Machine

theorem padKey_eq_iff (p n p' n' : Half) : padKey p n = padKey p' n' ↔ p = p' ∧ n = n' := by
  have h1 := n.isLt
  have h2 := n'.isLt
  constructor
  · intro h
    unfold padKey at h
    exact ⟨BitVec.eq_of_toNat_eq (by omega), BitVec.eq_of_toNat_eq (by omega)⟩
  · rintro ⟨rfl, rfl⟩
    rfl

@[simp] theorem PadCell.key_mk (p n : Half) (v : Bit) : PadCell.key ⟨p, n, v⟩ = padKey p n := rfl

theorem Pads.find_nil (p n : Half) : Pads.find [] p n = none := rfl

theorem Pads.find_cons (c : PadCell) (rest : Pads) (p n : Half) :
    Pads.find (c :: rest) p n = if c.key = padKey p n then some c.level else Pads.find rest p n := by
  simp only [Pads.find, PadCell.key, padKey_eq_iff]

/-- Read after write, by key. -/
theorem Pads.find_write_key (ps : Pads) (p n p' n' : Half) (v : Bit) :
    Pads.find (Pads.write ps p n v) p' n' = if padKey p n = padKey p' n' then some v else Pads.find ps p' n' := by
  induction ps with
  | nil => exact Pads.find_cons _ _ _ _
  | cons c rest ih =>
    unfold Pads.write
    split
    · exact Pads.find_cons _ _ _ _
    · split
      · rename_i h
        simp only [Pads.find_cons, PadCell.key_mk, ← h]
        by_cases hk : padKey p n = padKey p' n' <;> simp only [hk, if_true, if_false]
      · rename_i h
        simp only [Pads.find_cons, ih]
        by_cases hk : padKey p n = padKey p' n'
        · rw [if_pos hk, if_neg (by omega), if_pos hk]
        · rw [if_neg hk, if_neg hk]

/-- Read after write: the pad written reads the level, every other pad reads as before. -/
theorem Pads.find_write (ps : Pads) (p n p' n' : Half) (v : Bit) :
    Pads.find (Pads.write ps p n v) p' n' = if p = p' ∧ n = n' then some v else Pads.find ps p' n' := by
  rw [Pads.find_write_key]
  by_cases h : p = p' ∧ n = n'
  · rw [if_pos h, if_pos ((padKey_eq_iff ..).2 h)]
  · rw [if_neg h, if_neg (fun hk => h ((padKey_eq_iff ..).1 hk))]

/-- The level of every pad after one GPIO command. -/
theorem Pads.level_apply_set (ps : Pads) (p n p' n' : Half) (v : Bit) :
    Pads.level (Pads.apply ps (.set p n v)) p' n' = if p = p' ∧ n = n' then v else Pads.level ps p' n' := by
  simp only [Pads.apply, Pads.level, Pads.find_write]
  by_cases h : p = p' ∧ n = n'
  · rw [if_pos h, if_pos h]
  · rw [if_neg h, if_neg h]

theorem Pads.level_apply_toggle (ps : Pads) (p n p' n' : Half) :
    Pads.level (Pads.apply ps (.toggle p n)) p' n' =
      if p = p' ∧ n = n' then ~~~ Pads.level ps p n else Pads.level ps p' n' := by
  have h : Pads.apply ps (.toggle p n) = Pads.apply ps (.set p n (~~~ Pads.level ps p n)) := rfl
  rw [h, Pads.level_apply_set]

/-- A pad that has a defined level keeps one. -/
theorem Pads.find_apply_isSome (ps : Pads) (c : GpioCmd) (p n : Half) (h : (Pads.find ps p n).isSome) :
    (Pads.find (Pads.apply ps c) p n).isSome := by
  cases c <;> simp only [Pads.apply, Pads.find_write] <;> split <;> simp_all

/-- A write leaves no key in the pads but theirs and its own. -/
theorem Pads.key_of_mem_write (ps : Pads) (p n : Half) (v : Bit) (c : PadCell) (h : c ∈ Pads.write ps p n v) :
    c.key = padKey p n ∨ c ∈ ps := by
  induction ps with
  | nil => simp_all [Pads.write]
  | cons d rest ih =>
    unfold Pads.write at h
    split at h
    · simp only [List.mem_cons] at h ⊢
      rcases h with rfl | h
      · exact .inl rfl
      · exact .inr h
    · split at h
      · simp only [List.mem_cons] at h ⊢
        rcases h with rfl | h
        · exact .inl rfl
        · exact .inr (.inr h)
      · simp only [List.mem_cons] at h ⊢
        rcases h with rfl | h
        · exact .inr (.inl rfl)
        · exact (ih h).imp id .inr

/-- A write keeps the canonical form. -/
theorem Pads.write_wf (ps : Pads) (p n : Half) (v : Bit) (h : Pads.wf ps) : Pads.wf (Pads.write ps p n v) := by
  induction ps with
  | nil => simp [Pads.write]
  | cons d rest ih =>
    unfold Pads.wf at h ih ⊢
    rw [List.pairwise_cons] at h
    unfold Pads.write
    split
    · rename_i hlt
      rw [List.pairwise_cons, List.pairwise_cons]
      refine ⟨fun c hc => ?_, h⟩
      rcases List.mem_cons.1 hc with rfl | hc
      · exact hlt
      · exact Nat.lt_trans hlt (h.1 c hc)
    · split
      · rename_i heq
        rw [List.pairwise_cons]
        exact ⟨fun c hc => by rw [PadCell.key_mk, heq]; exact h.1 c hc, h.2⟩
      · rw [List.pairwise_cons]
        refine ⟨fun c hc => ?_, ih h.2⟩
        rcases Pads.key_of_mem_write rest p n v c hc with hk | hc
        · omega
        · exact h.1 c hc

/-- Every pad operation keeps the canonical form. -/
theorem Pads.apply_wf (ps : Pads) (c : GpioCmd) (h : Pads.wf ps) : Pads.wf (Pads.apply ps c) := by
  cases c <;> exact Pads.write_wf _ _ _ _ h

end Sys2Proof.Machine
end

