-- ==== Sys2Proof/Laws/Ops.lean ====
section
/-! SUPPORT. What each shared operation can do, said once: the provers cite these instead of unfolding. -/

namespace Sys2Proof.Machine

/-! ## The LED slot file -/

theorem State.setSlot_getElem? (s : State) (i j : Nat) (l : LedSlot) :
    (s.setSlot i l).led[j]? = if i = j ∧ j < 4 then some l else s.led[j]? := by
  simp only [State.setSlot_led, Vector.getElem?_setIfInBounds]
  split
  · rename_i h
    subst h
    split <;> simp_all
  · rename_i h
    rw [if_neg (by tauto)]

theorem lt_of_slot {s : State} {i : Nat} {l : LedSlot} (h : s.led[i]? = some l) : i < 4 := by
  rcases Nat.lt_or_ge i 4 with hi | hi
  · exact hi
  · simp [hi] at h

/-- A valid index is one in range whose slot is registered (R41). -/
theorem State.validSlot_eq_some {s : State} {i : Nat} {l : LedSlot} :
    s.validSlot i = some l ↔ s.led[i]? = some l ∧ l.registered = true := by
  simp [State.validSlot, Option.filter_eq_some_iff]

theorem State.validSlot_eq_none {s : State} {i : Nat} :
    s.validSlot i = none ↔ ∀ l, s.led[i]? = some l → l.registered = false := by
  simp [State.validSlot, Option.filter_eq_none_iff]

/-- The arbitration's scan finds exactly a registered slot in BLINK (R92). -/
theorem State.anyBlink_iff (s : State) :
    s.anyBlink = true ↔ ∃ (i : Nat) (l : LedSlot), s.led[i]? = some l ∧ l.registered = true ∧ l.state = .blink := by
  simp only [State.anyBlink, List.any_eq_true, Bool.and_eq_true, beq_iff_eq]
  constructor
  · rintro ⟨l, hl, h⟩
    obtain ⟨i, hi⟩ := List.mem_iff_getElem?.1 hl
    exact ⟨i, l, by simpa using hi, h⟩
  · rintro ⟨i, l, hi, h⟩
    exact ⟨l, List.mem_iff_getElem?.2 ⟨i, by simpa using hi⟩, h⟩

/-! ## Requests -/

theorem Request.matchesSlot_iff (q : Request) (l : LedSlot) :
    q.matchesSlot l = true ↔ q.state = l.state ∧ q.mask = l.slotsMask ∧ q.repeats = l.repeats := by
  simp [Request.matchesSlot, and_assoc]

@[simp] theorem Request.store_registered (q : Request) (l : LedSlot) : (q.store l).registered = l.registered := by
  unfold Request.store; split <;> rfl

@[simp] theorem Request.store_port (q : Request) (l : LedSlot) : (q.store l).port = l.port := by
  unfold Request.store; split <;> rfl

@[simp] theorem Request.store_pin (q : Request) (l : LedSlot) : (q.store l).pin = l.pin := by
  unfold Request.store; split <;> rfl

@[simp] theorem Request.store_mode (q : Request) (l : LedSlot) : (q.store l).mode = l.mode := by
  unfold Request.store; split <;> rfl

@[simp] theorem Request.store_state (q : Request) (l : LedSlot) : (q.store l).state = q.state := by
  unfold Request.store; split <;> simp_all

/-! ## The timer's arbitration -/

/-- The four rows of the arbitration (R92). -/
theorem State.arbitrate_cases (s : State) :
    (s.anyBlink = true ∧ s.timRun = false ∧ s.arbitrate = s.timEnable) ∨
    (s.anyBlink = true ∧ s.timRun = true ∧ s.arbitrate = s) ∨
    (s.anyBlink = false ∧ s.timRun = true ∧ s.arbitrate = s.timDisable) ∨
    (s.anyBlink = false ∧ s.timRun = false ∧ s.arbitrate = s) := by
  unfold State.arbitrate
  cases h1 : s.anyBlink <;> cases h2 : s.timRun <;> simp [h2]

@[simp] theorem State.arbitrate_led (s : State) : s.arbitrate.led = s.led := by
  rcases s.arbitrate_cases with h | h | h | h <;> rw [h.2.2] <;> rfl

@[simp] theorem State.arbitrate_irqEn (s : State) : s.arbitrate.irqEn = s.irqEn := by
  rcases s.arbitrate_cases with h | h | h | h <;> rw [h.2.2] <;> rfl

@[simp] theorem State.arbitrate_irqPrio (s : State) : s.arbitrate.irqPrio = s.irqPrio := by
  rcases s.arbitrate_cases with h | h | h | h <;> rw [h.2.2] <;> rfl

@[simp] theorem State.arbitrate_resp (s : State) : s.arbitrate.resp = s.resp := by
  rcases s.arbitrate_cases with h | h | h | h <;> rw [h.2.2] <;> rfl

@[simp] theorem State.arbitrate_gpioTrace (s : State) : s.arbitrate.gpioTrace = s.gpioTrace := by
  rcases s.arbitrate_cases with h | h | h | h <;> rw [h.2.2] <;> rfl

@[simp] theorem State.arbitrate_pad (s : State) : s.arbitrate.pad = s.pad := by
  rcases s.arbitrate_cases with h | h | h | h <;> rw [h.2.2] <;> rfl

@[simp] theorem State.arbitrate_inputs (s : State) : s.arbitrate.inputs = s.inputs := by
  rcases s.arbitrate_cases with h | h | h | h <;> rw [h.2.2] <;> rfl

/-- After the arbitration the timer runs exactly when some registered LED blinks. -/
theorem State.arbitrate_timRun (s : State) : s.arbitrate.timRun = s.anyBlink := by
  rcases s.arbitrate_cases with h | h | h | h <;> rw [h.2.2, h.1] <;> first | rfl | exact h.2.1

/-! ## The primitive -/

/-- The three outcomes of `set_led_state` (R88 to R93). -/
theorem State.setLedState_cases (s : State) (i : Nat) (q : Request) :
    ((∀ l, s.led[i]? = some l → l.registered = false) ∧ s.setLedState i q = s.answer Config.respErrIndex) ∨
    (∃ l, s.led[i]? = some l ∧ l.registered = true ∧ q.matchesSlot l = true ∧
      s.setLedState i q = s.answer Config.respOk) ∨
    (∃ l, s.led[i]? = some l ∧ l.registered = true ∧ q.matchesSlot l = false ∧
      s.setLedState i q = (s.fullPath i l q).answer Config.respOk) := by
  unfold State.setLedState
  cases h : s.validSlot i with
  | none => exact .inl ⟨State.validSlot_eq_none.1 h, rfl⟩
  | some l =>
    obtain ⟨h1, h2⟩ := State.validSlot_eq_some.1 h
    cases hm : q.matchesSlot l
    · exact .inr (.inr ⟨l, h1, h2, hm, by simp [hm]⟩)
    · exact .inr (.inl ⟨l, h1, h2, hm, by simp [hm]⟩)

/-- What the full path leaves in each field; the timer's bits are those of the arbitration (R91 to R93). -/
theorem State.fullPath_led (s : State) (i : Nat) (l : LedSlot) (q : Request) :
    (s.fullPath i l q).led = (s.setSlot i (q.store l)).led := by
  simp [State.fullPath, State.applyPin]

theorem State.fullPath_eq (s : State) (i : Nat) (l : LedSlot) (q : Request) :
    s.fullPath i l q = ((s.setSlot i (q.store l)).arbitrate).gpioSet l.port l.pin
      (levelFor (q.shown ((s.setSlot i (q.store l)).arbitrate).currentSlot) l.mode) := rfl

/-- The full path writes the one slot (R91). -/
theorem State.fullPath_getElem? {s : State} {i : Nat} {l : LedSlot} (hl : s.led[i]? = some l) (q : Request) (j : Nat) :
    (s.fullPath i l q).led[j]? = if j = i then some (q.store l) else s.led[j]? := by
  rw [State.fullPath_led, State.setSlot_getElem?]
  by_cases h : j = i
  · subst h
    rw [if_pos ⟨rfl, lt_of_slot hl⟩, if_pos rfl]
  · rw [if_neg (fun h' => h h'.1.symm), if_neg h]

/-! ## Registration -/

/-- `do_register`: the slot written and its pin driven dark, or nothing (R68). -/
theorem State.doRegister_cases (s : State) (i : Nat) (p n : Half) (m : Bit) :
    (i < 4 ∧ s.doRegister i p n m =
      (s.setSlot i ⟨true, p, n, m, .off, 0, 0⟩).gpioSet p n (levelFor .off m)) ∨
    (4 ≤ i ∧ s.doRegister i p n m = s) := by
  unfold State.doRegister
  split
  · rename_i h
    exact .inl ⟨h, rfl⟩
  · rename_i h
    exact .inr ⟨by simpa using h, rfl⟩

/-- A slot after `do_register` is the registered one, or it is as it was (R68). -/
theorem State.doRegister_getElem?_cases {s : State} {i j : Nat} {p n : Half} {m : Bit} {l : LedSlot}
    (h : (s.doRegister i p n m).led[j]? = some l) : l = ⟨true, p, n, m, .off, 0, 0⟩ ∨ s.led[j]? = some l := by
  rcases s.doRegister_cases i p n m with ⟨-, e⟩ | ⟨-, e⟩ <;> rw [e] at h
  · rw [State.gpioSet_led, State.setSlot_getElem?] at h
    split at h
    · cases h
      exact .inl rfl
    · exact .inr h
  · exact .inr h

@[simp] theorem State.doRegister_currentSlot (s : State) (i : Nat) (p n : Half) (m : Bit) :
    (s.doRegister i p n m).currentSlot = s.currentSlot := by
  rcases s.doRegister_cases i p n m with h | h <;> simp [h.2]

@[simp] theorem State.doRegister_timRun (s : State) (i : Nat) (p n : Half) (m : Bit) :
    (s.doRegister i p n m).timRun = s.timRun := by
  rcases s.doRegister_cases i p n m with h | h <;> simp [h.2]

@[simp] theorem State.doRegister_timClkEn (s : State) (i : Nat) (p n : Half) (m : Bit) :
    (s.doRegister i p n m).timClkEn = s.timClkEn := by
  rcases s.doRegister_cases i p n m with h | h <;> simp [h.2]

@[simp] theorem State.doRegister_timLpclkEn (s : State) (i : Nat) (p n : Half) (m : Bit) :
    (s.doRegister i p n m).timLpclkEn = s.timLpclkEn := by
  rcases s.doRegister_cases i p n m with h | h <;> simp [h.2]

@[simp] theorem State.doRegister_timOvfIe (s : State) (i : Nat) (p n : Half) (m : Bit) :
    (s.doRegister i p n m).timOvfIe = s.timOvfIe := by
  rcases s.doRegister_cases i p n m with h | h <;> simp [h.2]

@[simp] theorem State.doRegister_timOvf (s : State) (i : Nat) (p n : Half) (m : Bit) :
    (s.doRegister i p n m).timOvf = s.timOvf := by
  rcases s.doRegister_cases i p n m with h | h <;> simp [h.2]

@[simp] theorem State.doRegister_timSrOther (s : State) (i : Nat) (p n : Half) (m : Bit) :
    (s.doRegister i p n m).timSrOther = s.timSrOther := by
  rcases s.doRegister_cases i p n m with h | h <;> simp [h.2]

@[simp] theorem State.doRegister_timCfg (s : State) (i : Nat) (p n : Half) (m : Bit) :
    (s.doRegister i p n m).timCfg = s.timCfg := by
  rcases s.doRegister_cases i p n m with h | h <;> simp [h.2]

@[simp] theorem State.doRegister_irqEn (s : State) (i : Nat) (p n : Half) (m : Bit) :
    (s.doRegister i p n m).irqEn = s.irqEn := by
  rcases s.doRegister_cases i p n m with h | h <;> simp [h.2]

@[simp] theorem State.doRegister_irqPrio (s : State) (i : Nat) (p n : Half) (m : Bit) :
    (s.doRegister i p n m).irqPrio = s.irqPrio := by
  rcases s.doRegister_cases i p n m with h | h <;> simp [h.2]

@[simp] theorem State.doRegister_resp (s : State) (i : Nat) (p n : Half) (m : Bit) :
    (s.doRegister i p n m).resp = s.resp := by
  rcases s.doRegister_cases i p n m with h | h <;> simp [h.2]

@[simp] theorem State.doRegister_inputs (s : State) (i : Nat) (p n : Half) (m : Bit) :
    (s.doRegister i p n m).inputs = s.inputs := by
  rcases s.doRegister_cases i p n m with h | h <;> simp [h.2]

/-- INIT's loop, written out: the four indices in ascending order (R69). -/
theorem State.doInit_eq (s : State) (b : Nat → Option Config.BoardEntry) :
    s.doInit b = { State.registerEntry b (State.registerEntry b (State.registerEntry b (State.registerEntry b s 0) 1) 2) 3
      with irqPrio := some Config.irqPriority, irqEn := true } := rfl

/-- One entry of the board: registered, or nothing. -/
theorem State.registerEntry_cases (b : Nat → Option Config.BoardEntry) (s : State) (i : Nat) :
    (∃ e, b i = some e ∧ s.registerEntry b i = s.doRegister i e.port e.pin e.mode) ∨
    (b i = none ∧ s.registerEntry b i = s) := by
  unfold State.registerEntry
  cases b i with
  | none => exact .inr ⟨rfl, rfl⟩
  | some e => exact .inl ⟨e, rfl, rfl⟩

/-! ## The slot advance -/

/-- The handler's loop, written out: the four LEDs in ascending order, after the counter (R102). -/
theorem State.slotAdvance_eq (s : State) :
    s.slotAdvance = (((s.bumpSlot.advanceLed 0).advanceLed 1).advanceLed 2).advanceLed 3 := by
  have h : List.range Config.maxLeds = [0, 1, 2, 3] := rfl
  simp only [State.slotAdvance, h, List.foldl_cons, List.foldl_nil]

theorem countsDown_iff (r : Half) : countsDown r = true ↔ 0 < r.toInt := by simp [countsDown]

/-- A LED takes part under the four conditions of R105. -/
theorem LedSlot.participates_iff (l : LedSlot) :
    l.participates = true ↔
      l.registered = true ∧ l.state = .blink ∧ l.slotsMask ≠ 0 ∧ (0 < l.repeats.toInt ∨ l.repeats = 0xFFFF) := by
  simp [LedSlot.participates, repeatLive, countsDown_iff, Config.repeatForever, and_assoc]

/-- One LED of the slot advance: passed over, or toggled where the bits differ and then counted down (R105 to R107). -/
theorem State.advanceLed_cases (s : State) (i : Nat) :
    ((∀ l, s.led[i]? = some l → l.participates = false) ∧ s.advanceLed i = s) ∨
    (∃ l, s.led[i]? = some l ∧ l.participates = true ∧ s.advanceLed i = (s.edgeToggle l).countDown i l) := by
  unfold State.advanceLed
  simp only [State.slotAt_eq]
  cases h : s.led[i]? with
  | none => exact .inl ⟨by simp, rfl⟩
  | some l =>
    cases hp : l.participates
    · exact .inl ⟨by simpa using hp, by simp [hp]⟩
    · exact .inr ⟨l, rfl, hp, by simp [hp]⟩

/-- The toggle generator: one toggle, or nothing (R106). -/
theorem State.edgeToggle_cases (s : State) (l : LedSlot) :
    (maskBit l.slotsMask (prevSlot s.currentSlot) ≠ maskBit l.slotsMask s.currentSlot ∧
      s.edgeToggle l = s.gpioToggle l.port l.pin) ∨
    (maskBit l.slotsMask (prevSlot s.currentSlot) = maskBit l.slotsMask s.currentSlot ∧ s.edgeToggle l = s) := by
  unfold State.edgeToggle
  split
  · exact .inl ⟨by simp_all, rfl⟩
  · exact .inr ⟨by simp_all, rfl⟩

/-- The repeat counter: expiry, a decrement, or (not finite and positive) nothing (R107). -/
theorem State.countDown_cases (s : State) (i : Nat) (l : LedSlot) :
    (0 < l.repeats.toInt ∧ l.repeats = 1 ∧
      s.countDown i l = (s.setSlot i l.expired).gpioSet l.port l.pin (levelFor .off l.mode)) ∨
    (0 < l.repeats.toInt ∧ l.repeats ≠ 1 ∧ s.countDown i l = s.setSlot i { l with repeats := l.repeats - 1 }) ∨
    (¬ 0 < l.repeats.toInt ∧ s.countDown i l = s) := by
  have h1 : l.repeats - 1 = 0 ↔ l.repeats = 1 := by
    constructor
    · intro h
      have : l.repeats = (l.repeats - 1) + 1 := by simp
      rw [this, h]
      rfl
    · intro h
      rw [h]
      rfl
  unfold State.countDown
  split
  · rename_i hc
    rw [countsDown_iff] at hc
    split
    · rename_i h
      exact .inl ⟨hc, h1.1 h, rfl⟩
    · rename_i h
      exact .inr (.inl ⟨hc, fun h' => h (h1.2 h'), rfl⟩)
  · rename_i hc
    rw [countsDown_iff] at hc
    exact .inr (.inr ⟨hc, rfl⟩)

/-- What one LED's turn can make of a slot: nothing, expiry, or one less to go (R105, R107). -/
theorem State.advanceLed_getElem?_cases {s : State} {i j : Nat} {l : LedSlot}
    (h : (s.advanceLed i).led[j]? = some l) :
    s.led[j]? = some l ∨ ∃ l0, s.led[j]? = some l0 ∧ l0.participates = true ∧
      (l = l0.expired ∨ (0 < l0.repeats.toInt ∧ l0.repeats ≠ 1 ∧ l = { l0 with repeats := l0.repeats - 1 })) := by
  rcases s.advanceLed_cases i with ⟨-, e⟩ | ⟨l0, hl, hp, e⟩ <;> rw [e] at h
  · exact .inl h
  have he : (s.edgeToggle l0).led = s.led := by
    rcases s.edgeToggle_cases l0 with ⟨-, e⟩ | ⟨-, e⟩ <;> simp [e]
  rcases (s.edgeToggle l0).countDown_cases i l0 with ⟨-, -, e⟩ | ⟨h1, h2, e⟩ | ⟨-, e⟩ <;> rw [e] at h
  · rw [State.gpioSet_led, State.setSlot_getElem?] at h
    split at h
    · rename_i hij
      rw [← hij.1]
      cases h
      exact .inr ⟨l0, hl, hp, .inl rfl⟩
    · exact .inl (by rwa [he] at h)
  · rw [State.setSlot_getElem?] at h
    split at h
    · rename_i hij
      rw [← hij.1]
      cases h
      exact .inr ⟨l0, hl, hp, .inr ⟨h1, h2, rfl⟩⟩
    · exact .inl (by rwa [he] at h)
  · exact .inl (by rwa [he] at h)

@[simp] theorem State.advanceLed_currentSlot (s : State) (i : Nat) : (s.advanceLed i).currentSlot = s.currentSlot := by
  rcases s.advanceLed_cases i with ⟨-, e⟩ | ⟨l, -, -, e⟩ <;> rw [e]
  rcases (s.edgeToggle l).countDown_cases i l with ⟨-, -, e⟩ | ⟨-, -, e⟩ | ⟨-, e⟩ <;> rw [e] <;>
    rcases s.edgeToggle_cases l with ⟨-, e⟩ | ⟨-, e⟩ <;> rw [e] <;> rfl

@[simp] theorem State.advanceLed_timRun (s : State) (i : Nat) : (s.advanceLed i).timRun = s.timRun := by
  rcases s.advanceLed_cases i with ⟨-, e⟩ | ⟨l, -, -, e⟩ <;> rw [e]
  rcases (s.edgeToggle l).countDown_cases i l with ⟨-, -, e⟩ | ⟨-, -, e⟩ | ⟨-, e⟩ <;> rw [e] <;>
    rcases s.edgeToggle_cases l with ⟨-, e⟩ | ⟨-, e⟩ <;> rw [e] <;> rfl

@[simp] theorem State.advanceLed_timClkEn (s : State) (i : Nat) : (s.advanceLed i).timClkEn = s.timClkEn := by
  rcases s.advanceLed_cases i with ⟨-, e⟩ | ⟨l, -, -, e⟩ <;> rw [e]
  rcases (s.edgeToggle l).countDown_cases i l with ⟨-, -, e⟩ | ⟨-, -, e⟩ | ⟨-, e⟩ <;> rw [e] <;>
    rcases s.edgeToggle_cases l with ⟨-, e⟩ | ⟨-, e⟩ <;> rw [e] <;> rfl

@[simp] theorem State.advanceLed_timLpclkEn (s : State) (i : Nat) : (s.advanceLed i).timLpclkEn = s.timLpclkEn := by
  rcases s.advanceLed_cases i with ⟨-, e⟩ | ⟨l, -, -, e⟩ <;> rw [e]
  rcases (s.edgeToggle l).countDown_cases i l with ⟨-, -, e⟩ | ⟨-, -, e⟩ | ⟨-, e⟩ <;> rw [e] <;>
    rcases s.edgeToggle_cases l with ⟨-, e⟩ | ⟨-, e⟩ <;> rw [e] <;> rfl

@[simp] theorem State.advanceLed_timOvfIe (s : State) (i : Nat) : (s.advanceLed i).timOvfIe = s.timOvfIe := by
  rcases s.advanceLed_cases i with ⟨-, e⟩ | ⟨l, -, -, e⟩ <;> rw [e]
  rcases (s.edgeToggle l).countDown_cases i l with ⟨-, -, e⟩ | ⟨-, -, e⟩ | ⟨-, e⟩ <;> rw [e] <;>
    rcases s.edgeToggle_cases l with ⟨-, e⟩ | ⟨-, e⟩ <;> rw [e] <;> rfl

@[simp] theorem State.advanceLed_timOvf (s : State) (i : Nat) : (s.advanceLed i).timOvf = s.timOvf := by
  rcases s.advanceLed_cases i with ⟨-, e⟩ | ⟨l, -, -, e⟩ <;> rw [e]
  rcases (s.edgeToggle l).countDown_cases i l with ⟨-, -, e⟩ | ⟨-, -, e⟩ | ⟨-, e⟩ <;> rw [e] <;>
    rcases s.edgeToggle_cases l with ⟨-, e⟩ | ⟨-, e⟩ <;> rw [e] <;> rfl

@[simp] theorem State.advanceLed_timSrOther (s : State) (i : Nat) : (s.advanceLed i).timSrOther = s.timSrOther := by
  rcases s.advanceLed_cases i with ⟨-, e⟩ | ⟨l, -, -, e⟩ <;> rw [e]
  rcases (s.edgeToggle l).countDown_cases i l with ⟨-, -, e⟩ | ⟨-, -, e⟩ | ⟨-, e⟩ <;> rw [e] <;>
    rcases s.edgeToggle_cases l with ⟨-, e⟩ | ⟨-, e⟩ <;> rw [e] <;> rfl

@[simp] theorem State.advanceLed_timCfg (s : State) (i : Nat) : (s.advanceLed i).timCfg = s.timCfg := by
  rcases s.advanceLed_cases i with ⟨-, e⟩ | ⟨l, -, -, e⟩ <;> rw [e]
  rcases (s.edgeToggle l).countDown_cases i l with ⟨-, -, e⟩ | ⟨-, -, e⟩ | ⟨-, e⟩ <;> rw [e] <;>
    rcases s.edgeToggle_cases l with ⟨-, e⟩ | ⟨-, e⟩ <;> rw [e] <;> rfl

@[simp] theorem State.advanceLed_irqEn (s : State) (i : Nat) : (s.advanceLed i).irqEn = s.irqEn := by
  rcases s.advanceLed_cases i with ⟨-, e⟩ | ⟨l, -, -, e⟩ <;> rw [e]
  rcases (s.edgeToggle l).countDown_cases i l with ⟨-, -, e⟩ | ⟨-, -, e⟩ | ⟨-, e⟩ <;> rw [e] <;>
    rcases s.edgeToggle_cases l with ⟨-, e⟩ | ⟨-, e⟩ <;> rw [e] <;> rfl

@[simp] theorem State.advanceLed_irqPrio (s : State) (i : Nat) : (s.advanceLed i).irqPrio = s.irqPrio := by
  rcases s.advanceLed_cases i with ⟨-, e⟩ | ⟨l, -, -, e⟩ <;> rw [e]
  rcases (s.edgeToggle l).countDown_cases i l with ⟨-, -, e⟩ | ⟨-, -, e⟩ | ⟨-, e⟩ <;> rw [e] <;>
    rcases s.edgeToggle_cases l with ⟨-, e⟩ | ⟨-, e⟩ <;> rw [e] <;> rfl

@[simp] theorem State.advanceLed_resp (s : State) (i : Nat) : (s.advanceLed i).resp = s.resp := by
  rcases s.advanceLed_cases i with ⟨-, e⟩ | ⟨l, -, -, e⟩ <;> rw [e]
  rcases (s.edgeToggle l).countDown_cases i l with ⟨-, -, e⟩ | ⟨-, -, e⟩ | ⟨-, e⟩ <;> rw [e] <;>
    rcases s.edgeToggle_cases l with ⟨-, e⟩ | ⟨-, e⟩ <;> rw [e] <;> rfl

@[simp] theorem State.advanceLed_inputs (s : State) (i : Nat) : (s.advanceLed i).inputs = s.inputs := by
  rcases s.advanceLed_cases i with ⟨-, e⟩ | ⟨l, -, -, e⟩ <;> rw [e]
  rcases (s.edgeToggle l).countDown_cases i l with ⟨-, -, e⟩ | ⟨-, -, e⟩ | ⟨-, e⟩ <;> rw [e] <;>
    rcases s.edgeToggle_cases l with ⟨-, e⟩ | ⟨-, e⟩ <;> rw [e] <;> rfl

/-- One run of the handler (R102, R103, R109). -/
theorem State.serveInterrupt_cases (s : State) :
    (s.timOvf = true ∧ s.serveInterrupt = s.slotAdvance.clearFlags) ∨
    (s.timOvf = false ∧ s.serveInterrupt = s.clearFlags) := by
  cases h : s.timOvf <;> simp [State.serveInterrupt, h]

theorem State.isrGuard_iff (s : State) :
    s.isrGuard = true ↔ s.irqEn = true ∧ ((s.timOvf = true ∧ s.timOvfIe = true) ∨ s.timSrOther = true) := by
  simp [State.isrGuard, State.irqPending]

end Sys2Proof.Machine
end

