-- ==== Sys2Proof/Laws/Exec.lean ====
section
/-! SUPPORT. The next state of every instruction, the inversion of one step, and the induction over the operations of a
step, packaged once. -/

namespace Sys2Proof.Machine

/-! ## The next state of each instruction -/

theorem exec_init (s : State) : exec .init s = .next ((s.doInit Config.board).answer Config.respOk) := rfl

theorem exec_register (x : Index) (p n : Half) (m : Bit) (s : State) :
    exec (.register x p n m) s = .next ((s.doRegister x.toNat p n m).answer Config.respOk) := rfl

theorem exec_setstate (x : Index) (st : LedState) (m r : Half) (s : State) :
    exec (.setstate x st m r) s = .next (s.setLedState x.toNat ⟨st, m, r⟩) := rfl

theorem exec_set (x : Index) (st : LedState) (s : State) :
    exec (.set x st) s = .next (s.setLedState x.toNat (setRequest st)) := rfl

theorem exec_blink (x : Index) (m c : Half) (s : State) :
    exec (.blink x m c) s = .next (s.setLedState x.toNat ⟨.blink, m, blinkRepeat c⟩) := rfl

theorem exec_get (x : Index) (s : State) :
    exec (.get x) s = .next (s.answer (stateResp (s.queryState x.toNat))) := rfl

theorem exec_toggle (x : Index) (s : State) :
    exec (.toggle x) s = .next (s.setLedState x.toNat (toggleRequest (s.queryState x.toNat))) := rfl

theorem exec_overflow (s : State) : exec .overflow s = .next (if s.timRun then s.raiseOverflow else s) := rfl

theorem exec_otherflag (s : State) : exec .otherflag s = .next (if s.timClkEn then s.raiseOther else s) := rfl

theorem exec_isr (s : State) : exec .isr s = .next (if s.isrGuard then s.serveInterrupt else s) := rfl

theorem exec_reset (s : State) : exec .reset s = .next { State.reset with pad := s.pad, inputs := s.inputs } := rfl

/-- What an instruction other than RESET can do: register and answer, answer only, take the full path, raise a flag,
run the handler, or (an event whose guard is false) nothing. -/
theorem exec_cases {i : Instr} {s t : State} (h : exec i s = .next t) (hr : i ≠ .reset) :
    (i = .init ∧ t = (s.doInit Config.board).answer Config.respOk) ∨
    (∃ x p n m, i = .register x p n m ∧ t = (s.doRegister x.toNat p n m).answer Config.respOk) ∨
    (∃ v, t = s.answer v) ∨
    (∃ (k : Nat) (l : LedSlot) (q : Request), s.led[k]? = some l ∧ l.registered = true ∧ q.matchesSlot l = false ∧
      t = (s.fullPath k l q).answer Config.respOk) ∨
    (i = .overflow ∧ t = s.raiseOverflow) ∨ (i = .otherflag ∧ t = s.raiseOther) ∨
    (i = .isr ∧ s.isrGuard = true ∧ t = s.serveInterrupt) ∨ (i.wellFormed = false ∧ t = s) := by
  have hset : ∀ k q, (∃ v, s.setLedState k q = s.answer v) ∨
      (∃ (k' : Nat) (l : LedSlot) (q' : Request), s.led[k']? = some l ∧ l.registered = true ∧
        q'.matchesSlot l = false ∧ s.setLedState k q = (s.fullPath k' l q').answer Config.respOk) := by
    intro k q
    rcases s.setLedState_cases k q with ⟨-, e⟩ | ⟨l, -, -, -, e⟩ | ⟨l, h1, h2, h3, e⟩
    · exact .inl ⟨_, e⟩
    · exact .inl ⟨_, e⟩
    · exact .inr ⟨k, l, q, h1, h2, h3, e⟩
  cases i with
  | init => rw [exec_init] at h; cases h; exact .inl ⟨rfl, rfl⟩
  | register x p n m => rw [exec_register] at h; cases h; exact .inr (.inl ⟨x, p, n, m, rfl, rfl⟩)
  | setstate x st m r => rw [exec_setstate] at h; cases h; exact .inr (.inr ((hset _ _).imp id .inl))
  | set x st => rw [exec_set] at h; cases h; exact .inr (.inr ((hset _ _).imp id .inl))
  | blink x m c => rw [exec_blink] at h; cases h; exact .inr (.inr ((hset _ _).imp id .inl))
  | toggle x => rw [exec_toggle] at h; cases h; exact .inr (.inr ((hset _ _).imp id .inl))
  | get x => rw [exec_get] at h; cases h; exact .inr (.inr (.inl ⟨_, rfl⟩))
  | overflow =>
    rw [exec_overflow] at h; cases h
    split <;> simp [Instr.wellFormed, Instr.line]
  | otherflag =>
    rw [exec_otherflag] at h; cases h
    split <;> simp [Instr.wellFormed, Instr.line]
  | isr =>
    rw [exec_isr] at h; cases h
    split
    · rename_i hg
      simp [hg]
    · simp [Instr.wellFormed, Instr.line]
  | reset => exact absurd rfl hr

/-! ## One step -/

/-- What one step can be: the meaning of the instruction its instant causes, or the answer to an illegal word. -/
theorem step_cases {s t : State} (h : step s = .next t) :
    (∃ i, s.fetch = .ok i ∧ exec i s.consume = .next t) ∨
    (∃ e, s.fetch = .error e ∧ t = s.consume.answerIllegal) := by
  unfold step at h
  cases hf : s.fetch with
  | ok i => exact .inl ⟨i, rfl, by simpa [hf] using h⟩
  | error e =>
    simp only [hf, Host.Outcome.next.injEq] at h
    exact .inr ⟨e, rfl, h.symm⟩

/-- One step of a run of `core`. -/
theorem core_run_step {s t : State} {k : Nat} (h : step s = .next t) : core.run (k + 1) s = core.run k t := by
  have h' : core.step s = .next t := h
  simp only [Host.Core.run, h']

/-! ## Induction over the operations of a step -/

/-- What every elementary operation of an instruction keeps, every instruction keeps. `hfull` may use that the index is
valid and the request differs from the slot. -/
theorem exec_keeps {P : State → Prop}
    (hans : ∀ s v, P s → P (s.answer v))
    (hreg : ∀ s i p n m, P s → P (s.doRegister i p n m))
    (hirq : ∀ s : State, P s → P { s with irqPrio := some Config.irqPriority, irqEn := true })
    (hfull : ∀ (s : State) (i : Nat) (l : LedSlot) (q : Request), s.led[i]? = some l → l.registered = true →
      q.matchesSlot l = false → P s → P (s.fullPath i l q))
    (hovf : ∀ s : State, P s → s.timRun = true → P s.raiseOverflow)
    (hother : ∀ s : State, P s → s.timClkEn = true → P s.raiseOther)
    (hserve : ∀ s : State, P s → s.isrGuard = true → P s.serveInterrupt)
    (hreset : ∀ s : State, P s → P { State.reset with pad := s.pad, inputs := s.inputs })
    {i : Instr} {s t : State} (h : exec i s = .next t) (hs : P s) : P t := by
  have hentry : ∀ (b : Nat → Option Config.BoardEntry) (s : State) (i : Nat), P s → P (s.registerEntry b i) := by
    intro b s i hs
    rcases State.registerEntry_cases b s i with ⟨e, -, h⟩ | ⟨-, h⟩ <;> rw [h]
    · exact hreg _ _ _ _ _ hs
    · exact hs
  have hset : ∀ (s : State) (i : Nat) (q : Request), P s → P (s.setLedState i q) := by
    intro s i q hs
    rcases s.setLedState_cases i q with ⟨-, h⟩ | ⟨l, -, -, -, h⟩ | ⟨l, h1, h2, h3, h⟩ <;> rw [h]
    · exact hans _ _ hs
    · exact hans _ _ hs
    · exact hans _ _ (hfull _ _ _ _ h1 h2 h3 hs)
  cases i with
  | init =>
    rw [exec_init, State.doInit_eq] at h
    cases h
    exact hans _ _ (hirq _ (hentry _ _ _ (hentry _ _ _ (hentry _ _ _ (hentry _ _ _ hs)))))
  | register x p n m => rw [exec_register] at h; cases h; exact hans _ _ (hreg _ _ _ _ _ hs)
  | setstate x st m r => rw [exec_setstate] at h; cases h; exact hset _ _ _ hs
  | set x st => rw [exec_set] at h; cases h; exact hset _ _ _ hs
  | blink x m c => rw [exec_blink] at h; cases h; exact hset _ _ _ hs
  | get x => rw [exec_get] at h; cases h; exact hans _ _ hs
  | toggle x => rw [exec_toggle] at h; cases h; exact hset _ _ _ hs
  | overflow =>
    rw [exec_overflow] at h; cases h
    split
    · exact hovf _ hs ‹_›
    · exact hs
  | otherflag =>
    rw [exec_otherflag] at h; cases h
    split
    · exact hother _ hs ‹_›
    · exact hs
  | isr =>
    rw [exec_isr] at h; cases h
    split
    · exact hserve _ hs ‹_›
    · exact hs
  | reset => rw [exec_reset] at h; cases h; exact hreset _ hs

/-- What every LED's turn keeps, the whole run of the handler keeps. -/
theorem serveInterrupt_keeps {P : State → Prop} (hbump : ∀ s : State, P s → P s.bumpSlot)
    (hled : ∀ (s : State) (i : Nat), P s → P (s.advanceLed i)) (hclear : ∀ s : State, P s → P s.clearFlags)
    {s : State} (hs : P s) : P s.serveInterrupt := by
  rcases s.serveInterrupt_cases with ⟨-, h⟩ | ⟨-, h⟩ <;> rw [h]
  · rw [State.slotAdvance_eq]
    exact hclear _ (hled _ _ (hled _ _ (hled _ _ (hled _ _ (hbump _ hs)))))
  · exact hclear _ hs

/-- What every instruction keeps, and what does not look at `inputs` and `resp`, every step keeps. -/
theorem step_keeps {P : State → Prop} (hexec : ∀ (i : Instr) (s t : State), exec i s = .next t → P s → P t)
    (hans : ∀ s v, P s → P (s.answer v)) (hconsume : ∀ s : State, P s → P s.consume)
    {s t : State} (h : step s = .next t) (hs : P s) : P t := by
  rcases step_cases h with ⟨i, -, h⟩ | ⟨e, -, rfl⟩
  · exact hexec _ _ _ h (hconsume _ hs)
  · exact hans _ _ (hconsume _ hs)

end Sys2Proof.Machine
end

