-- ==== Sys2Proof/Tests/Slice0.lean ====
section
/-! SUPPORT. The model's own tests: the check of WellFormed, words written out from the encoding tables, one step of each
instruction on the vectors of `95_test_vectors.md`, and a state that meets the hypotheses of each statement. -/

namespace Sys2Proof.Tests

open Sys2Proof.Machine Sys2Proof.Safety

/-! ## States -/

/-- `TESTBOARD` (`95_test_vectors.md` section 1). -/
def board : Nat → Option Config.BoardEntry
  | 0 => some ⟨0x0001, 0x0005, 1⟩
  | 1 => some ⟨0x0001, 0x0006, 0⟩
  | 2 => some ⟨0x0002, 0x0000, 1⟩
  | _ => none

/-- The state S1: INIT with `TESTBOARD` after reset. -/
def s1 : State := (State.reset.doInit board).answer 0x00

/-- The next state of an instruction. -/
def after (i : Instr) (s : State) : State :=
  match exec i s with
  | .next t => t
  | .fault _ => s
  | .refused _ => s

/-- S1 with LED 0 blinking to a pattern. -/
def blinking (m r : Half) : State := after (.setstate 0 .blink m r) s1

/-- S1 with LED 0 blinking to a pattern and an overflow pending. -/
def pending (m r : Half) : State := after .overflow (blinking m r)

/-- A state at a given time slot. -/
def atSlot (c : Slot) (s : State) : State := { s with currentSlot := c }

/-- A fact about every slot, checked slot by slot. -/
theorem every_slot {s : State} {P : Nat → LedSlot → Prop}
    (h : ∀ k : Fin 4, P k.val (s.led[k.val]'k.isLt)) : ∀ (i : Nat) (l : LedSlot), s.led[i]? = some l → P i l := by
  intro i l hl
  have hi := lt_of_slot hl
  have := h ⟨i, hi⟩
  rw [Vector.getElem?_eq_getElem hi] at hl
  cases hl
  exact this

/-! ## WellFormed: a step that no word on `cmd` stands for is refused (R63) -/

theorem test_wellFormed_refuses_overflow : Instr.overflow.wellFormed = false := by decide
theorem test_wellFormed_refuses_otherflag : Instr.otherflag.wellFormed = false := by decide
theorem test_wellFormed_refuses_isr : Instr.isr.wellFormed = false := by decide
theorem test_wellFormed_refuses_reset : Instr.reset.wellFormed = false := by decide
theorem test_wellFormed_takes_a_command : (Instr.setstate 15 .blink 0xFFFF 0x8000).wellFormed = true := by decide

/-! ## Decoding: words written out from R55 and R57, and from the vectors D-ENC -/

theorem test_decode_init : decode 0x100000000000 = .ok .init := by decide
/-- Opcode 2, index 3, `a` 01, port 0002, pin 0001 (R67). -/
theorem test_decode_register : decode 0x230100020001 = .ok (.register 3 0x0002 0x0001 1) := by decide
/-- Opcode 3, index 0, `a` 01, mask 1234, repeat 0007 (D-ENC18). -/
theorem test_decode_setstate : decode 0x300112340007 = .ok (.setstate 0 .on 0x1234 7) := by decide
/-- Opcode 4, index 15, `a` 01 (D-ENC9). -/
theorem test_decode_set : decode 0x4F0100000000 = .ok (.set 15 .on) := by decide
/-- Opcode 5, mask AAAA, count 8000, which is -32768 (D-ENC16). -/
theorem test_decode_blink : decode 0x5000AAAA8000 = .ok (.blink 0 0xAAAA (BitVec.ofInt 16 (-32768))) := by decide
theorem test_decode_get : decode 0x690000000000 = .ok (.get 9) := by decide
theorem test_decode_toggle : decode 0x710000000000 = .ok (.toggle 1) := by decide

/-- Opcodes 0, 8 and 15 (D-ENC1 to 3). -/
theorem test_decode_reserved_opcodes :
    ∀ w ∈ [0x000000000000, 0x800000000000, 0xF00000000000], decode (BitVec.ofNat 48 w) = .error .reservedOpcode := by
  decide

/-- D-ENC4, 7 and 10 to 14. -/
theorem test_decode_must_be_zero :
    ∀ w ∈ [0x100000000001, 0x600000000001, 0x230200020001, 0x500100010003, 0x400400000000, 0x400100010000,
      0x710000000001], decode (BitVec.ofNat 48 w) = .error .mustBeZero := by
  decide

/-- D-ENC5, 6 and 8: state code 3, whatever the index. -/
theorem test_decode_reserved_state :
    ∀ w ∈ [0x400300000000, 0x300300010001, 0x4F0300000000], decode (BitVec.ofNat 48 w) = .error .reservedState := by
  decide

/-- The encoder gives the words of R67. -/
theorem test_encode_words :
    encode .init = some 0x100000000000 ∧ encode (.register 1 0x0001 0x0006 0) = some 0x210000010006 ∧
    encode (.setstate 0 .blink 0x0001 3) = some 0x300200010003 ∧ encode (.set 1 .blink) = some 0x410200000000 ∧
    encode (.blink 2 0x00F0 0xFFFF) = some 0x520000F0FFFF ∧ encode (.get 0) = some 0x600000000000 ∧
    encode (.toggle 1) = some 0x710000000000 := by
  decide

/-- A word of the table runs as the next step. -/
theorem test_table_word : decodeTableWord 48 0x410200000000 = some (.set 1 .blink) ∧ decodeTableWord 48 0 = none := by
  decide

/-- R65 and R67: the written form. -/
theorem test_assembly :
    asmText (.register 3 0x0002 0x0001 1) = "register 3, 0x0002, 0x0001, high" ∧
    asmText (.blink 2 0x00F0 0xFFFF) = "blink 2, 0x00F0, -1" := by
  decide

/-- R66: `tick 2`, `forever i, mask` and `blinkdef i`. -/
theorem test_pseudo :
    expand (.tick 2) = [.overflow, .isr, .overflow, .isr] ∧ expand (.forever 1 0xAAAA) = [.blink 1 0xAAAA 0] ∧
    expand (.blinkdef 1) = [.set 1 .blink] := by
  decide

/-- V9: 1200 / 16 = 75 time-units. -/
theorem test_slot_period : Config.slotPeriod = 75 := by decide

/-- R141: two toggles of one pad cancel. -/
theorem test_two_toggles_cancel :
    Pads.level (Pads.apply (Pads.apply [⟨1, 5, 1⟩] (.toggle 1 5)) (.toggle 1 5)) 1 5 = 1 := by decide

/-! ## One step of each instruction -/

/-- R69's example. -/
theorem test_init_registers_the_board :
    s1.led.toList.map (·.registered) = [true, true, true, false] ∧
    s1.gpioTrace = [.set 1 5 0, .set 1 6 1, .set 2 0 0] := by decide

theorem test_init_enables_the_interrupt : (after .init State.reset).irqEn = true := rfl

/-- D-REG1. -/
theorem test_register_active_low :
    (after (.register 1 1 6 0) State.reset).led[1]? = some ⟨true, 1, 6, 0, .off, 0, 0⟩ ∧
    (after (.register 1 1 6 0) State.reset).gpioTrace = [.set 1 6 1] := by decide

/-- D-REG5: the old pad keeps its level. -/
theorem test_register_leaves_the_old_pad :
    (after (.register 0 3 7 0) (after (.set 0 .on) s1)).padLevel 1 5 = 1 ∧
    (after (.register 0 3 7 0) (after (.set 0 .on) s1)).padLevel 3 7 = 1 := by decide

/-- R94's example. -/
theorem test_setstate_starts_the_timer :
    (blinking 0x0001 3).led[0]? = some ⟨true, 1, 5, 1, .blink, 0x0001, 3⟩ ∧ (blinking 0x0001 3).timRun = true ∧
    (blinking 0x0001 3).gpioTrace.drop 3 = [.set 1 5 1] := by decide

/-- P3, steps 15 and 16: mask and repeat forced to 0, and no short-circuit the second time. -/
theorem test_setstate_on_forces_zero :
    (after (.setstate 0 .on 0x1234 7) (after (.setstate 0 .on 0x1234 7) s1)).led[0]? =
      some ⟨true, 1, 5, 1, .on, 0, 0⟩ ∧
    (after (.setstate 0 .on 0x1234 7) (after (.setstate 0 .on 0x1234 7) s1)).gpioTrace.drop 3 =
      [.set 1 5 1, .set 1 5 1] := by decide

/-- D-SS1, last row: validity before the short-circuit. -/
theorem test_set_unregistered : (after (.set 3 .off) s1).resp = 0xFF := by decide

/-- V3, third row: the running timer's slot is kept and its bit shown. -/
theorem test_set_blink_while_running :
    (after (.set 1 .blink) (atSlot 3 (blinking 0xAAAA 0xFFFF))).currentSlot = 3 ∧
    (after (.set 1 .blink) (atSlot 3 (blinking 0xAAAA 0xFFFF))).gpioTrace.drop 4 = [.set 1 6 0] := by decide

/-- R96's example: count 0 is for ever. -/
theorem test_blink_zero_is_forever :
    (after (.blink 0 0xAAAA 0) s1).led[0]? = some ⟨true, 1, 5, 1, .blink, 0xAAAA, 0xFFFF⟩ := by decide

/-- D-SS2: the countdown restarts, at the time slot in progress. -/
theorem test_blink_restarts_the_count :
    (after (.blink 0 0x0001 3) (atSlot 1 (blinking 0x0001 2))).led[0]? =
      some ⟨true, 1, 5, 1, .blink, 0x0001, 3⟩ ∧
    (after (.blink 0 0x0001 3) (atSlot 1 (blinking 0x0001 2))).gpioTrace.drop 4 = [.set 1 5 0] := by decide

/-- D-REG7: the stored state, not the effective one. -/
theorem test_get_blink : (after (.get 0) (blinking 0xAAAA 0xFFFF)).resp = 0x02 := by decide

/-- V1. -/
theorem test_get_out_of_range : (after (.get 9) (after (.set 9 .on) s1)).resp = 0x00 := by decide

/-- V8: BLINK goes to ON and the timer stops. -/
theorem test_toggle_blink :
    (after (.toggle 1) (after (.set 1 .blink) s1)).led[1]? = some ⟨true, 1, 6, 0, .on, 0, 0⟩ ∧
    (after (.toggle 1) (after (.set 1 .blink) s1)).timRun = false := by decide

/-- D-SS6, last rows. -/
theorem test_toggle_bad_index : (after (.toggle 9) s1).resp = 0xFF ∧ (after (.toggle 3) s1).resp = 0xFF := by decide

/-- D-TIM1. -/
theorem test_overflow_stopped : (after .overflow s1).timOvf = false := by decide

/-- D-TIM5: a pending overflow is discarded when the timer starts again. -/
theorem test_overflow_discarded :
    (after (.blink 0 0x0001 0) (after (.set 0 .off) (pending 0xAAAA 0xFFFF))).timOvf = false ∧
    (after (.set 0 .off) (pending 0xAAAA 0xFFFF)).timOvf = true := by decide

/-- D-TIM6: the clock is off before the first blink. -/
theorem test_otherflag_clock_off : (after .otherflag s1).timSrOther = false := by decide

/-- D-TIM6: the clock stays on after the timer stops. -/
theorem test_otherflag_after_stop :
    (after .otherflag (after (.set 0 .off) (blinking 0xAAAA 0xFFFF))).timSrOther = true := by decide

/-- D-SA3: toggle and expiry in one ISR, in that order. -/
theorem test_isr_toggle_then_expiry :
    (after .isr (pending 0xAAAA 1)).led[0]? = some ⟨true, 1, 5, 1, .off, 0, 0⟩ ∧
    (after .isr (pending 0xAAAA 1)).gpioTrace.drop 4 = [.toggle 1 5, .set 1 5 0] ∧
    (after .isr (pending 0xAAAA 1)).timRun = true := by decide

/-- D-SA1, tick 16: the wrap compares bit 15 with bit 0. -/
theorem test_isr_wrap :
    (after .isr (atSlot 15 (pending 0x8000 0xFFFF))).currentSlot = 0 ∧
    (after .isr (atSlot 15 (pending 0x8000 0xFFFF))).gpioTrace.drop 4 = [.toggle 1 5] := by decide

/-- D-ERR3: RESET clears the registration and the trace and drives no pin. -/
theorem test_reset_drives_no_pin :
    (after .reset (after (.set 0 .on) s1)).led[0]? = some LedSlot.reset ∧
    (after .reset (after (.set 0 .on) s1)).gpioTrace = [] ∧
    (after .reset (after (.set 0 .on) s1)).padLevel 1 5 = 1 := by decide

/-! ## Witnesses: a state and operands that meet the hypotheses of each statement -/

theorem witness_EncodedCommandDecodesBack : ∃ i : Instr, i.wellFormed = true := ⟨.toggle 15, by decide⟩

theorem witness_DecodedWordIsItsEncoding : ∃ (w : CmdWord) (i : Instr), decode w = .ok i :=
  ⟨0x52000FF00003, .blink 2 0x0FF0 3, by decide⟩

/-- The cases at the edges of the opcode's range and of the state field. -/
theorem witness_CommandsDecodeInOrder :
    (∀ w ∈ [0x0FFFFFFFFFFF, 0x800000000000, 0xFFFFFFFFFFFF], ReservedOpcode (BitVec.ofNat 48 w)) ∧
    (∀ w ∈ [0x1FFFFFFFFFFF, 0x700000000001], ¬ ReservedOpcode (BitVec.ofNat 48 w) ∧
      ¬ MatchesRow (BitVec.ofNat 48 w)) ∧
    (∀ w ∈ [0x300300000000, 0x4F0300000000], MatchesRow (BitVec.ofNat 48 w) ∧ ReservedState (BitVec.ofNat 48 w)) ∧
    (∀ w ∈ [0x100000000000, 0x3F02FFFFFFFF, 0x7F0000000000], MatchesRow (BitVec.ofNat 48 w) ∧
      ¬ ReservedState (BitVec.ofNat 48 w)) ∧
    (s1.present 0).inputs = ⟨false, .cmd 0⟩ :: s1.inputs := by
  unfold ReservedOpcode MatchesRow ReservedState opcodeRows
  decide

theorem witness_PresentedWordRunsNext : decodeTableWord 48 0x600000000000 = some (.get 0) := by decide

theorem witness_StepRunsTheDecodedCommand :
    (s1.present 0x600000000000).inputs = ⟨false, .cmd 0x600000000000⟩ :: [] ∧ decode 0x600000000000 = .ok (.get 0) := by
  decide

theorem witness_StepRunsTheEvents :
    ({ s1 with inputs := [⟨false, .ovf⟩] } : State).inputs = ⟨false, .ovf⟩ :: [] ∧
    ({ s1 with inputs := [⟨false, .oflag⟩] } : State).inputs = ⟨false, .oflag⟩ :: [] ∧
    ({ s1 with inputs := [⟨true, .ovf⟩] } : State).inputs = ⟨true, .ovf⟩ :: [] ∧
    ({ s1 with inputs := [⟨false, .quiet⟩] } : State).inputs = ⟨false, .quiet⟩ :: [] ∧ s1.inputs = [] := by decide

theorem witness_ReservedOpcodeIsAnswered :
    (s1.present 0x800000000000).inputs = ⟨false, .cmd 0x800000000000⟩ :: [] ∧ ReservedOpcode 0x800000000000 := by
  unfold ReservedOpcode
  decide

/-- One word for each row of the opcode map. -/
theorem witness_NonzeroReservedBitIsAnswered :
    ∀ p ∈ List.zip opcodeRows [0x100000000001, 0x200200000000, 0x300400000000, 0x400000010000, 0x500100000000,
      0x600100000000, 0x7F0000000001],
      p.1 ∈ opcodeRows ∧ (BitVec.ofNat 48 p.2).toNat / 2 ^ 44 = p.1.2.toNat / 2 ^ 44 ∧
      BitVec.ofNat 48 p.2 &&& p.1.1 ≠ p.1.2 ∧
      (s1.present (BitVec.ofNat 48 p.2)).inputs = ⟨false, .cmd (BitVec.ofNat 48 p.2)⟩ :: [] := by
  unfold opcodeRows
  decide

theorem witness_ReservedStateCodeIsAnswered :
    (s1.present 0x4F0300000000).inputs = ⟨false, .cmd 0x4F0300000000⟩ :: [] ∧ ReservedState 0x4F0300000000 ∧
    ReservedState 0x300300000000 := by
  unfold ReservedState
  decide

theorem witness_EveryStepHasANextState : 4 ≤ (4 : Index).toNat ∧ 4 ≤ (15 : Index).toNat := by decide

theorem witness_RegisterStoresAndDrivesDark : (3 : Index).toNat < 4 ∧ 4 ≤ (4 : Index).toNat := by decide

theorem witness_GetAnswersTheStoredState :
    (∃ l, s1.led[(3 : Index).toNat]? = some l ∧ l.state = .off) ∧
    (∃ l, (after (.set 2 .on) s1).led[(2 : Index).toNat]? = some l ∧ l.state = .on) ∧
    (∃ l, (blinking 1 3).led[(0 : Index).toNat]? = some l ∧ l.state = .blink) ∧ 4 ≤ (4 : Index).toNat := by
  refine ⟨⟨_, rfl, ?_⟩, ⟨_, rfl, ?_⟩, ⟨_, rfl, ?_⟩, ?_⟩ <;> decide

/-- Every slot of S1 is dark. -/
theorem s1_dark : ¬ Blinking s1 := by
  rintro ⟨i, l, hl, -, hb⟩
  exact every_slot (P := fun _ l => l.state ≠ .blink) (by decide) i l hl hb

theorem on_dark : ¬ Blinking (after (.set 0 .on) (blinking 1 3)) := by
  rintro ⟨i, l, hl, -, hb⟩
  exact every_slot (P := fun _ l => l.state ≠ .blink) (by decide) i l hl hb

theorem blinking_blinks : Blinking (blinking 1 3) := ⟨0, _, rfl, by decide, by decide⟩

/-- The four cases of the primitive, and the four rows of its arbitration on the full path. -/
theorem witness_SetstateIsThePrimitive :
    s1.led[(4 : Index).toNat]? = none ∧
    (∃ l, s1.led[(3 : Index).toNat]? = some l ∧ l.registered = false) ∧
    (∃ l, (blinking 1 3).led[(0 : Index).toNat]? = some l ∧ l.registered = true ∧
      (LedState.blink, (1 : Half), (3 : Half)) = (l.state, l.slotsMask, l.repeats)) ∧
    (∃ l, s1.led[(0 : Index).toNat]? = some l ∧ l.registered = true ∧
      (LedState.blink, (1 : Half), (3 : Half)) ≠ (l.state, l.slotsMask, l.repeats)) ∧
    (Blinking (blinking 1 3) ∧ s1.timRun = false) ∧
    (Blinking (after (.setstate 1 .on 0 0) (blinking 1 3)) ∧ (blinking 1 3).timRun = true) ∧
    (¬ Blinking (after (.set 0 .on) (blinking 1 3)) ∧ (blinking 1 3).timRun = true) ∧
    (¬ Blinking (after (.setstate 0 .off 0 1) s1) ∧ s1.timRun = false) := by
  refine ⟨by decide, ⟨_, rfl, by decide⟩, ⟨_, rfl, by decide⟩, ⟨_, rfl, by decide⟩, ⟨blinking_blinks, by decide⟩,
    ⟨⟨0, _, rfl, by decide, by decide⟩, by decide⟩, ⟨on_dark, by decide⟩, ⟨?_, by decide⟩⟩
  rintro ⟨i, l, hl, -, hb⟩
  exact every_slot (P := fun _ l => l.state ≠ .blink) (by decide) i l hl hb

/-- SET's three triples take the cases of the primitive on these states. -/
theorem witness_SetUsesTheDefaults :
    (∃ l, s1.led[(2 : Index).toNat]? = some l ∧ l.registered = true ∧
      (LedState.blink, Config.defaultMask, (0xFFFF : Half)) ≠ (l.state, l.slotsMask, l.repeats) ∧
      (LedState.on, (0 : Half), (0 : Half)) ≠ (l.state, l.slotsMask, l.repeats) ∧
      (LedState.off, (0 : Half), (0 : Half)) = (l.state, l.slotsMask, l.repeats)) ∧
    s1.led[(15 : Index).toNat]? = none := ⟨⟨_, rfl, by decide⟩, by decide⟩

theorem witness_EqualRequestIsANoOp :
    (∃ l, (after (.set 0 .on) s1).led[(0 : Index).toNat]? = some l ∧ l.registered = true ∧
      (LedState.on, (0 : Half), (0 : Half)) = (l.state, l.slotsMask, l.repeats) ∧
      (LedState.on, (1 : Half), (0 : Half)) ≠ (l.state, l.slotsMask, l.repeats)) ∧
    (∃ l, (after (.set 0 .blink) s1).led[(0 : Index).toNat]? = some l ∧ l.registered = true ∧
      (.blink, Config.defaultMask, (0xFFFF : Half)) = (l.state, l.slotsMask, l.repeats) ∧ l.state = .blink ∧
      l.repeats ≠ 0 ∧ l.repeats = 0xFFFF) :=
  ⟨⟨_, rfl, by decide⟩, ⟨_, rfl, by decide⟩⟩

theorem witness_BlinkCountZeroIsForever : (1 : Half) ≠ 0 ∧ (0xFFFF : Half) ≠ 0 := by decide

theorem witness_ToggleFlipsAndLightsABlinker :
    (∃ l, (after (.set 0 .on) s1).led[(0 : Index).toNat]? = some l ∧ l.registered = true ∧ l.state = .on) ∧
    (∃ l, (blinking 1 3).led[(0 : Index).toNat]? = some l ∧ l.registered = true ∧ l.state ≠ .on) ∧
    (∃ l, s1.led[(3 : Index).toNat]? = some l ∧ l.registered = false) ∧ s1.led[(4 : Index).toNat]? = none :=
  ⟨⟨_, rfl, by decide⟩, ⟨_, rfl, by decide⟩, ⟨_, rfl, by decide⟩, by decide⟩

theorem witness_GpioCommandsDriveOnePad : ((1, 6) : Half × Half) ≠ (1, 5) := by decide

theorem witness_TraceExplainsThePads : ∃ t, Instr.isr ≠ .reset ∧ exec .isr (pending 0xAAAA 1) = .next t :=
  ⟨_, by decide, rfl⟩

theorem witness_OverflowSetsTheFlag : (blinking 1 3).timRun = true ∧ s1.timRun = false := by decide

theorem witness_OtherflagSetsTheOtherFlag : (blinking 1 3).timClkEn = true ∧ s1.timClkEn = false := by decide

theorem witness_UnservedOverflowsMerge :
    ∃ t u, exec .overflow (blinking 1 3) = .next t ∧ exec .overflow t = .next u := ⟨_, _, rfl, rfl⟩

theorem witness_IsrAdvancesEveryLed :
    ((pending 1 3).irqEn = true ∧ (pending 1 3).timOvf = true ∧ (pending 1 3).timOvfIe = true) ∧
    ((after .otherflag (blinking 1 3)).irqEn = true ∧ (after .otherflag (blinking 1 3)).timOvf = false ∧
      (after .otherflag (blinking 1 3)).timSrOther = true) := by decide

theorem witness_IsrWaitsForItsGuard :
    ¬ (s1.irqEn = true ∧ ((s1.timOvf = true ∧ s1.timOvfIe = true) ∨ s1.timSrOther = true)) := by decide

theorem witness_IsrNeverWritesTheTimerControl : ∃ t, exec .isr (pending 1 3) = .next t := ⟨_, rfl⟩

theorem blinking_ticks (m r : Half) (h : (blinking m r).timRun = true ∧ (blinking m r).irqEn = true ∧
    (blinking m r).timOvfIe = true) (is : List Instant) : Ticking { blinking m r with inputs := is } := h

theorem witness_TickIsOneSlotAdvance :
    ∃ s : State, Ticking s ∧ s.inputs = ticks 1 ++ [] :=
  ⟨{ blinking 1 3 with inputs := ticks 1 }, blinking_ticks 1 3 (by decide) _, rfl⟩

/-- The smallest count and the largest (D-SA7). -/
theorem witness_CountExpiresOnItsLastTick :
    (∃ (s : State) (l : LedSlot), Ticking s ∧ s.led[0]? = some l ∧ l.registered = true ∧ l.state = .blink ∧
      l.slotsMask ≠ 0 ∧ l.repeats = BitVec.ofNat 16 1 ∧ s.inputs = ticks 1 ++ []) ∧
    (∃ (s : State) (l : LedSlot), Ticking s ∧ s.led[0]? = some l ∧ l.registered = true ∧ l.state = .blink ∧
      l.slotsMask ≠ 0 ∧ l.repeats = BitVec.ofNat 16 32767 ∧ s.inputs = ticks 32767 ++ []) :=
  ⟨⟨{ blinking 1 1 with inputs := ticks 1 ++ [] }, _, blinking_ticks 1 1 (by decide) _, rfl, by decide, by decide,
    by decide, by decide, rfl⟩,
   ⟨{ blinking 0x7FFF 0x7FFF with inputs := ticks 32767 ++ [] }, _, blinking_ticks 0x7FFF 0x7FFF (by decide) _, rfl,
    by decide, by decide, by decide, by decide, rfl⟩⟩

theorem witness_ForeverNeverExpires :
    ∃ (s : State) (l : LedSlot), Ticking s ∧ s.led[0]? = some l ∧ l.repeats = 0xFFFF ∧ s.inputs = ticks 40 ++ [] :=
  ⟨{ blinking 0xAAAA 0xFFFF with inputs := ticks 40 ++ [] }, _, blinking_ticks 0xAAAA 0xFFFF (by decide) _, rfl,
    by decide, rfl⟩

/-- A state with an overflow pending, a LED about to expire and a dark one: every invariant holds of it and its step has
a next state. -/
def busy : State := pending 0xAAAA 1

theorem busy_steps : ∃ t, step busy = .next t := ⟨_, rfl⟩

theorem witness_StepKeepsPlainStatesEmpty : PlainStatesEmpty busy ∧ ∃ t, step busy = .next t :=
  ⟨every_slot (P := fun _ l => l.state ≠ .blink → l.slotsMask = 0 ∧ l.repeats = 0) (by decide), busy_steps⟩

theorem witness_StepKeepsBlinkNeedsTimer : BlinkNeedsTimer busy ∧ Blinking busy ∧ ∃ t, step busy = .next t :=
  ⟨fun _ => by decide, ⟨0, _, rfl, by decide, by decide⟩, busy_steps⟩

theorem witness_StepKeepsUnregisteredInert : UnregisteredInert busy ∧ ∃ t, step busy = .next t :=
  ⟨every_slot (P := fun _ l => l.registered = false → l.state = .off ∧ l.slotsMask = 0 ∧ l.repeats = 0) (by decide),
    busy_steps⟩

theorem witness_StepKeepsPadsDefined : PadsDefined busy ∧ ∃ t, step busy = .next t := by
  refine ⟨fun i l hl hr => ?_, busy_steps⟩
  have := every_slot (s := busy) (P := fun _ l => l.registered = true → (Pads.find busy.pad l.port l.pin).isSome = true)
    (by decide) i l hl hr
  exact Option.isSome_iff_exists.1 this

theorem witness_StepKeepsRunningTimerEnabled :
    RunningTimerEnabled busy ∧ busy.timRun = true ∧ ∃ t, step busy = .next t :=
  ⟨fun _ => by decide, by decide, busy_steps⟩

theorem witness_StepKeepsPadsCanonical : Pads.wf busy.pad ∧ ∃ t, step busy = .next t := ⟨by decide, busy_steps⟩

/-- On `TESTBOARD` no two LEDs share a pad. -/
theorem own_pad {s : State} (h : ∀ k : Fin 4, ((s.led[k.val]'k.isLt).registered = true → k.val ≠ 0 →
    ((s.led[k.val]'k.isLt).port, (s.led[k.val]'k.isLt).pin) ≠ ((s.led[0]'(by decide)).port, (s.led[0]'(by decide)).pin))) :
    OwnPad 0 s := by
  intro j li lj hi hj hr hne
  rw [Vector.getElem?_eq_getElem (by decide)] at hi
  cases hi
  exact every_slot (P := fun k l => l.registered = true → k ≠ 0 →
    (l.port, l.pin) ≠ ((s.led[0]'(by decide)).port, (s.led[0]'(by decide)).pin)) h j lj hj hr hne

theorem witness_StepKeepsPadInStep :
    BlinkNeedsTimer (pending 0xAAAA 2) ∧ OwnPad 0 (pending 0xAAAA 2) ∧ PadInStep 0 (pending 0xAAAA 2) ∧
    ∃ t, step (pending 0xAAAA 2) = .next t ∧ OwnPad 0 t ∧ ∃ l, t.led[0]? = some l ∧ TakesPart l := by
  refine ⟨fun _ => by decide, own_pad (by decide), ?_, _, rfl, own_pad (by decide), ⟨_, rfl, by decide⟩⟩
  intro l hl _
  cases hl
  decide

theorem witness_RegistrationIsPermanent :
    (∃ l t, s1.led[0]? = some l ∧ l.registered = true ∧ exec (.set 0 .on) s1 = .next t ∧ Instr.set 0 .on ≠ .reset) ∧
    (∃ l t, s1.led[3]? = some l ∧ l.registered = false ∧ exec (.set 3 .on) s1 = .next t ∧ Instr.set 3 .on ≠ .init ∧
      ∀ x p n m, Instr.set 3 .on ≠ .register x p n m) :=
  ⟨⟨_, _, rfl, by decide, rfl, by decide⟩, ⟨_, _, rfl, by decide, rfl, by decide, fun _ _ _ _ => nofun⟩⟩

theorem witness_BindingIsFixedAtRegistration :
    ∃ l t, busy.led[0]? = some l ∧ exec .isr busy = .next t ∧ Instr.isr ≠ .reset ∧ Instr.isr ≠ .init ∧
      ∀ x p n m, Instr.isr ≠ .register x p n m :=
  ⟨_, _, rfl, rfl, by decide, by decide, fun _ _ _ _ => nofun⟩

theorem witness_OnlyInitAndResetWriteTheIrq :
    ∃ t, exec .isr busy = .next t ∧ Instr.isr ≠ .init ∧ Instr.isr ≠ .reset := ⟨_, rfl, by decide, by decide⟩

theorem witness_OnlyResetStopsTheClock :
    ∃ t, exec (.set 0 .off) busy = .next t ∧ Instr.set 0 .off ≠ .reset ∧ busy.timClkEn = true ∧
      busy.timLpclkEn = true := ⟨_, rfl, by decide, by decide, by decide⟩

theorem witness_SlotCounterRestartsWithTheTimer :
    (∃ t, exec (.set 0 .blink) s1 = .next t ∧ s1.timRun = false ∧ t.timRun = true) ∧
    (∃ t, exec (.set 1 .blink) busy = .next t ∧ ¬ (busy.timRun = false ∧ t.timRun = true)) ∧
    Instr.set 0 .blink ≠ .isr ∧ Instr.set 0 .blink ≠ .reset :=
  ⟨⟨_, rfl, by decide, by decide⟩, ⟨_, rfl, by decide⟩, by decide, by decide⟩

theorem witness_ResponsesAreThoseOfTheTable :
    Valid s1 0 ∧ ¬ Valid s1 3 ∧ ¬ Valid s1 4 ∧ (∃ t, exec (.set 0 .on) s1 = .next t) ∧
    (s1.present 0).inputs = ⟨false, .cmd 0⟩ :: [] ∧ decode 0 = .error .reservedOpcode ∧
    (∃ t, step (s1.present 0) = .next t) := by
  refine ⟨⟨_, rfl, by decide⟩, ?_, ?_, ⟨_, rfl⟩, by decide, by decide, ⟨_, rfl⟩⟩
  · rintro ⟨l, hl, hr⟩
    cases hl
    exact absurd hr (by decide)
  · rintro ⟨l, hl, -⟩
    rw [show s1.led[(4 : Index).toNat]? = none by decide] at hl
    cases hl

theorem witness_EventsLeaveTheResponse :
    ∃ t, exec .isr busy = .next t ∧ Instr.isr.wellFormed = false ∧ Instr.isr ≠ .reset := ⟨_, rfl, by decide, by decide⟩

theorem witness_UnreadRegistersDoNotMatter : ∃ t, step busy = .next t := busy_steps

/-- P3 before INIT: a LED registered by REGISTER blinks, and no interrupt is enabled. -/
theorem witness_NoSlotAdvanceBeforeInit :
    ∃ s t, s = after (.blink 3 3 2) (after (.register 3 2 1 1) State.reset) ∧ exec .overflow s = .next t ∧
      Instr.overflow ≠ .init ∧ s.irqEn = false ∧ s.currentSlot = 0 ∧ s.timRun = true :=
  ⟨_, _, rfl, rfl, by decide, by decide, by decide, by decide⟩

theorem expired_dark : ¬ Blinking (after .isr busy) := by
  rintro ⟨i, l, hl, -, hb⟩
  exact every_slot (P := fun _ l => l.state ≠ .blink) (by decide) i l hl hb

theorem reregistered_dark : ¬ Blinking (after (.register 0 1 5 1) busy) := by
  rintro ⟨i, l, hl, -, hb⟩
  exact every_slot (P := fun _ l => l.state ≠ .blink) (by decide) i l hl hb

/-- INIT on `TESTBOARD` takes the last blinking LED. -/
theorem reinitialised_dark : ¬ Blinking ((busy.doInit board).answer 0x00) := by
  rintro ⟨i, l, hl, -, hb⟩
  exact every_slot (P := fun _ l => l.state ≠ .blink) (by decide) i l hl hb

/-- The ways into drift, and a drifting state with a request that short-circuits and one that does not. -/
theorem witness_DriftBeginsLastsAndEnds :
    (busy.timRun = true ∧ Blinking busy ∧ exec .isr busy = .next (after .isr busy) ∧ ¬ Blinking (after .isr busy)) ∧
    (exec (.register 0 1 5 1) busy = .next (after (.register 0 1 5 1) busy) ∧
      ¬ Blinking (after (.register 0 1 5 1) busy)) ∧
    ¬ Blinking ((busy.doInit board).answer 0x00) ∧
    (Drift (after .isr busy) ∧ ∃ l, (after .isr busy).led[(0 : Index).toNat]? = some l ∧ l.registered = true ∧
      (LedState.off, (0 : Half), (0 : Half)) = (l.state, l.slotsMask, l.repeats) ∧
      (LedState.on, (0 : Half), (0 : Half)) ≠ (l.state, l.slotsMask, l.repeats)) :=
  ⟨⟨by decide, ⟨0, _, rfl, by decide, by decide⟩, rfl, expired_dark⟩, ⟨rfl, reregistered_dark⟩, reinitialised_dark,
    ⟨by decide, expired_dark⟩, ⟨_, rfl, by decide⟩⟩

theorem witness_PendingOverflowOutlivesTheStop :
    busy.timRun = true ∧ busy.timOvf = true ∧ busy.timOvfIe = true ∧ busy.irqEn = true ∧
    (∃ l, busy.led[(0 : Index).toNat]? = some l ∧ l.registered = true) ∧
    exec (.set 0 .off) busy = .next (after (.set 0 .off) busy) ∧ (after (.set 0 .off) busy).timRun = false :=
  ⟨by decide, by decide, by decide, by decide, ⟨_, rfl, by decide⟩, rfl, by decide⟩

end Sys2Proof.Tests
end

section
/-! The proofs about the state (`10_state.md`): how an instruction changes one LED slot, how the pads follow the trace,
the invariants every step keeps, and the registers no rule reads. -/

namespace Sys2Proof.StateProofs

open Sys2Proof.Machine Sys2Proof.Safety

/-! ## How one LED slot changes -/

/-- One change of a LED slot that is not its registration: a request stored by the primitive (R91), the expiry of its
count, or one count less (R107). All three happen to registered slots only. -/
inductive SlotChange : LedSlot → LedSlot → Prop where
  | stored (l : LedSlot) (q : Request) (hr : l.registered = true) : SlotChange l (q.store l)
  | expired (l : LedSlot) (hp : l.participates = true) : SlotChange l l.expired
  | counted (l : LedSlot) (hp : l.participates = true) : SlotChange l { l with repeats := l.repeats - 1 }

/-- A slot as registration leaves it (R68). -/
def Fresh (l : LedSlot) : Prop := ∃ p n m, l = ⟨true, p, n, m, .off, 0, 0⟩

/-- The two slots agree on what only registration writes (R13, R15, R20). -/
structure SameBinding (l l' : LedSlot) : Prop where
  registered : l'.registered = l.registered
  port : l'.port = l.port
  pin : l'.pin = l.pin
  mode : l'.mode = l.mode

/-- Every slot of `t` comes from the same slot of `s` by changes other than registration. -/
def SlotsFrom (s t : State) : Prop :=
  ∀ (k : Nat) (l' : LedSlot), t.led[k]? = some l' → ∃ l, s.led[k]? = some l ∧ Relation.ReflTransGen SlotChange l l'

/-- The instruction registers LEDs (R20, R71). -/
def Registers (i : Instr) : Prop := i = .init ∨ ∃ x p n m, i = .register x p n m

theorem registered_of_participates {l : LedSlot} (hp : l.participates = true) : l.registered = true :=
  (l.participates_iff.1 hp).1

theorem blink_of_participates {l : LedSlot} (hp : l.participates = true) : l.state = .blink :=
  (l.participates_iff.1 hp).2.1

theorem SlotChange.registered {l l' : LedSlot} (h : SlotChange l l') : l.registered = true := by
  cases h with
  | stored q hr => exact hr
  | expired hp => exact registered_of_participates hp
  | counted hp => exact registered_of_participates hp

theorem SlotChange.sameBinding {l l' : LedSlot} (h : SlotChange l l') : SameBinding l l' := by
  cases h with
  | stored q hr => exact ⟨by simp, by simp, by simp, by simp⟩
  | expired hp => exact ⟨rfl, rfl, rfl, rfl⟩
  | counted hp => exact ⟨rfl, rfl, rfl, rfl⟩

/-- What every change of a slot keeps, any number of changes keep. -/
theorem kept_by_changes {Q : LedSlot → Prop} (hQ : ∀ l l', SlotChange l l' → Q l → Q l') {l l' : LedSlot}
    (h : Relation.ReflTransGen SlotChange l l') (hl : Q l) : Q l' := by
  induction h with
  | refl => exact hl
  | tail _ hc ih => exact hQ _ _ hc ih

theorem sameBinding_of_changes {l l' : LedSlot} (h : Relation.ReflTransGen SlotChange l l') : SameBinding l l' := by
  refine kept_by_changes (Q := SameBinding l) ?_ h ⟨rfl, rfl, rfl, rfl⟩
  intro a b hab hla
  have hb := hab.sameBinding
  exact ⟨hb.registered.trans hla.registered, hb.port.trans hla.port, hb.pin.trans hla.pin, hb.mode.trans hla.mode⟩

/-! ## What an instruction makes of the slots -/

theorem SlotsFrom.of_led_eq {s t : State} (h : t.led = s.led) : SlotsFrom s t :=
  fun _ l' hl => ⟨l', h ▸ hl, .refl⟩

theorem SlotsFrom.advanceLed {s u : State} (h : SlotsFrom s u) (i : Nat) : SlotsFrom s (u.advanceLed i) := by
  intro k l' hl'
  rcases State.advanceLed_getElem?_cases hl' with hl | ⟨l0, hl0, hp, hc⟩
  · exact h k l' hl
  · obtain ⟨l, hl, hreach⟩ := h k l0 hl0
    rcases hc with rfl | ⟨-, -, rfl⟩
    · exact ⟨l, hl, hreach.tail (.expired l0 hp)⟩
    · exact ⟨l, hl, hreach.tail (.counted l0 hp)⟩

/-- The handler changes slots by expiry and counting only (R107). -/
theorem serveInterrupt_slotsFrom (s : State) : SlotsFrom s s.serveInterrupt :=
  serveInterrupt_keeps (P := SlotsFrom s) (fun _ h => h) (fun _ i h => h.advanceLed i) (fun _ h => h) (.of_led_eq rfl)

/-- The full path of the primitive stores the request in the one slot (R91). -/
theorem fullPath_slotsFrom {s : State} {i : Nat} {l : LedSlot} (hl : s.led[i]? = some l) (hr : l.registered = true)
    (q : Request) : SlotsFrom s (s.fullPath i l q) := by
  intro k l' hl'
  rw [State.fullPath_getElem? hl] at hl'
  split at hl'
  · rename_i hk
    subst hk
    cases hl'
    exact ⟨l, hl, .single (.stored l q hr)⟩
  · exact ⟨l', hl', .refl⟩

/-- One entry of the board leaves every slot freshly registered or as it was (R69). -/
theorem registerEntry_getElem?_cases {b : Nat → Option Config.BoardEntry} {s : State} {i k : Nat} {l : LedSlot}
    (h : (s.registerEntry b i).led[k]? = some l) : Fresh l ∨ s.led[k]? = some l := by
  rcases State.registerEntry_cases b s i with ⟨e, -, he⟩ | ⟨-, he⟩ <;> rw [he] at h
  · exact (State.doRegister_getElem?_cases h).imp (fun hl => ⟨_, _, _, hl⟩) id
  · exact .inr h

/-- INIT leaves every slot freshly registered or as it was, on whatever board profile (R69). -/
theorem doInit_getElem?_cases {b : Nat → Option Config.BoardEntry} {s : State} {k : Nat} {l : LedSlot}
    (h : (s.doInit b).led[k]? = some l) : Fresh l ∨ s.led[k]? = some l := by
  rw [State.doInit_eq] at h
  rcases registerEntry_getElem?_cases h with hf | h
  · exact .inl hf
  rcases registerEntry_getElem?_cases h with hf | h
  · exact .inl hf
  rcases registerEntry_getElem?_cases h with hf | h
  · exact .inl hf
  exact registerEntry_getElem?_cases h

/-- What an instruction other than RESET makes of a slot: INIT and REGISTER may register it, and otherwise it comes from
the slot before by the changes of R91 and R107. -/
theorem exec_slot_cases {i : Instr} {s t : State} (h : exec i s = .next t) (hr : i ≠ .reset) {k : Nat} {l' : LedSlot}
    (hl' : t.led[k]? = some l') :
    (Registers i ∧ Fresh l') ∨ ∃ l, s.led[k]? = some l ∧ Relation.ReflTransGen SlotChange l l' := by
  rcases exec_cases h hr with ⟨hi, rfl⟩ | ⟨x, p, n, m, hi, rfl⟩ | ⟨v, rfl⟩ | ⟨j, l, q, hl, hreg, -, rfl⟩ | ⟨-, rfl⟩ |
    ⟨-, rfl⟩ | ⟨-, -, rfl⟩ | ⟨-, rfl⟩
  · exact (doInit_getElem?_cases hl').imp (fun hf => ⟨.inl hi, hf⟩) fun hl => ⟨l', hl, .refl⟩
  · exact (State.doRegister_getElem?_cases hl').imp (fun hf => ⟨.inr ⟨x, p, n, m, hi⟩, p, n, m, hf⟩)
      fun hl => ⟨l', hl, .refl⟩
  · exact .inr ⟨l', hl', .refl⟩
  · exact .inr (fullPath_slotsFrom hl hreg q k l' hl')
  · exact .inr ⟨l', hl', .refl⟩
  · exact .inr ⟨l', hl', .refl⟩
  · exact .inr (serveInterrupt_slotsFrom s k l' hl')
  · exact .inr ⟨l', hl', .refl⟩

/-- Every slot after RESET has the value of R39. -/
theorem reset_getElem? {k : Nat} (hk : k < 4) : State.reset.led[k]? = some LedSlot.reset := by
  simp [State.reset, hk]

theorem eq_reset_of_getElem? {k : Nat} {l : LedSlot} (h : State.reset.led[k]? = some l) : l = LedSlot.reset := by
  rw [reset_getElem? (lt_of_slot h)] at h
  exact (Option.some.inj h).symm

/-! ## Properties of every slot -/

/-- Every slot has the property. -/
def EverySlot (Q : LedSlot → Prop) (s : State) : Prop := ∀ (k : Nat) (l : LedSlot), s.led[k]? = some l → Q l

/-- A property of one slot that registration and the reset value meet, and every change of a slot keeps, is kept by
every step. -/
theorem step_keeps_everySlot {Q : LedSlot → Prop} (hfresh : ∀ l, Fresh l → Q l) (hreset : Q LedSlot.reset)
    (hchange : ∀ l l', SlotChange l l' → Q l → Q l') {s t : State} (h : step s = .next t) (hs : EverySlot Q s) :
    EverySlot Q t := by
  refine step_keeps (P := EverySlot Q) ?_ (fun _ _ hs => hs) (fun _ hs => hs) h hs
  intro i s t h hs k l' hl'
  by_cases hr : i = .reset
  · subst hr
    rw [exec_reset] at h
    cases h
    rw [eq_reset_of_getElem? hl']
    exact hreset
  · rcases exec_slot_cases h hr hl' with ⟨-, hf⟩ | ⟨l, hl, hreach⟩
    · exact hfresh l' hf
    · exact kept_by_changes hchange hreach (hs k l hl)

/-- The primitive stores a mask and a repeat with BLINK only (R91). -/
theorem store_plain {q : Request} {l : LedSlot} (h : (q.store l).state ≠ .blink) :
    (q.store l).slotsMask = 0 ∧ (q.store l).repeats = 0 := by
  obtain ⟨st, m, r⟩ := q
  cases st with
  | off => exact ⟨rfl, rfl⟩
  | on => exact ⟨rfl, rfl⟩
  | blink => exact absurd rfl h

/-- Settles O38: a slot gets a mask or a repeat with BLINK only, and loses both with it. -/
theorem stepKeepsPlainStatesEmpty : Obligations.StepKeepsPlainStatesEmpty := by
  intro s t hs h
  refine step_keeps_everySlot (Q := fun l => l.state ≠ .blink → l.slotsMask = 0 ∧ l.repeats = 0) ?_ ?_ ?_ h hs
  · rintro _ ⟨p, n, m, rfl⟩ -
    exact ⟨rfl, rfl⟩
  · exact fun _ => ⟨rfl, rfl⟩
  · intro l l' hc _ hb
    cases hc with
    | stored q hr => exact store_plain hb
    | expired hp => exact ⟨rfl, rfl⟩
    | counted hp => exact absurd (blink_of_participates hp) hb

/-- Settles O40: registration sets `registered`, and every other change is of a registered slot. -/
theorem stepKeepsUnregisteredInert : Obligations.StepKeepsUnregisteredInert := by
  intro s t hs h
  refine step_keeps_everySlot
    (Q := fun l => l.registered = false → l.state = .off ∧ l.slotsMask = 0 ∧ l.repeats = 0) ?_ ?_ ?_ h hs
  · rintro _ ⟨p, n, m, rfl⟩ hr
    cases hr
  · exact fun _ => ⟨rfl, rfl, rfl⟩
  · intro l l' hc _ hr
    rw [hc.sameBinding.registered, hc.registered] at hr
    cases hr

/-! ## Registration and binding -/

/-- All states have the same indices in range. -/
theorem exists_slot {s : State} {k : Nat} {l : LedSlot} (h : s.led[k]? = some l) (t : State) :
    ∃ l', t.led[k]? = some l' :=
  ⟨t.led[k]'(lt_of_slot h), Vector.getElem?_eq_getElem (lt_of_slot h)⟩

/-- What does not register and is not RESET leaves every slot's binding (R13, R15, R20). -/
theorem exec_sameBinding {i : Instr} {s t : State} (h : exec i s = .next t) (hr : i ≠ .reset) (hreg : ¬ Registers i)
    {k : Nat} {l : LedSlot} (hl : s.led[k]? = some l) : ∃ l', t.led[k]? = some l' ∧ SameBinding l l' := by
  obtain ⟨l', hl'⟩ := exists_slot hl t
  rcases exec_slot_cases h hr hl' with ⟨hi, -⟩ | ⟨l0, hl0, hreach⟩
  · exact absurd hi hreg
  · rw [hl] at hl0
    cases hl0
    exact ⟨l', hl', sameBinding_of_changes hreach⟩

theorem not_registers {i : Instr} (hinit : i ≠ .init) (hregister : ∀ x p n m, i ≠ .register x p n m) :
    ¬ Registers i := by
  rintro (hi | ⟨x, p, n, m, hi⟩)
  · exact hinit hi
  · exact hregister x p n m hi

/-- An instruction other than RESET leaves a registered slot registered (R20). -/
theorem exec_keeps_registered {i : Instr} {s t : State} (h : exec i s = .next t) (hr : i ≠ .reset) {k : Nat}
    {l : LedSlot} (hl : s.led[k]? = some l) (hreg : l.registered = true) :
    ∃ l', t.led[k]? = some l' ∧ l'.registered = true := by
  obtain ⟨l', hl'⟩ := exists_slot hl t
  rcases exec_slot_cases h hr hl' with ⟨-, p, n, m, rfl⟩ | ⟨l0, hl0, hreach⟩
  · exact ⟨_, hl', rfl⟩
  · rw [hl] at hl0
    cases hl0
    exact ⟨l', hl', (sameBinding_of_changes hreach).registered.trans hreg⟩

/-- Settles O45, by what an instruction can make of one slot. -/
theorem registrationIsPermanent : Obligations.RegistrationIsPermanent := by
  intro i s t k l h hl
  refine ⟨fun hr hreg => exec_keeps_registered h hr hl hreg, fun hinit hregister hunreg => ?_⟩
  by_cases hr : i = .reset
  · subst hr
    rw [exec_reset] at h
    cases h
    exact ⟨_, reset_getElem? (lt_of_slot hl), rfl⟩
  · obtain ⟨l', hl', hsame⟩ := exec_sameBinding h hr (not_registers hinit hregister) hl
    exact ⟨l', hl', hsame.registered.trans hunreg⟩

/-- Settles O46: the changes of R91 and R107 write no port, pin or mode. -/
theorem bindingIsFixedAtRegistration : Obligations.BindingIsFixedAtRegistration := by
  intro i s t k l h hl hr hinit hregister
  obtain ⟨l', hl', hsame⟩ := exec_sameBinding h hr (not_registers hinit hregister) hl
  exact ⟨l', hl', hsame.port, hsame.pin, hsame.mode⟩

/-! ## The timer runs while a LED blinks -/

/-- R35 passes to a state with the same `tim_run` in which no further LED blinks. -/
theorem blinkNeedsTimer_of_slots {s t : State} (hs : BlinkNeedsTimer s) (hrun : t.timRun = s.timRun)
    (hslot : ∀ (k : Nat) (l' : LedSlot), t.led[k]? = some l' → l'.state = .blink →
      ∃ l, s.led[k]? = some l ∧ l.registered = l'.registered ∧ l.state = .blink) : BlinkNeedsTimer t := by
  rintro ⟨k, l', hl', hreg, hb⟩
  obtain ⟨l, hl, hr, hlb⟩ := hslot k l' hl' hb
  rw [hrun]
  exact hs ⟨k, l, hl, hr.trans hreg, hlb⟩

/-- The arbitration establishes R35, whatever held before (R92). -/
theorem fullPath_blinkNeedsTimer (s : State) (i : Nat) (l : LedSlot) (q : Request) :
    BlinkNeedsTimer (s.fullPath i l q) := by
  intro hb
  rw [State.fullPath_eq, State.gpioSet_timRun, State.arbitrate_timRun, State.anyBlink_iff]
  unfold Blinking at hb
  rwa [State.fullPath_led] at hb

theorem doRegister_blinkNeedsTimer {s : State} (hs : BlinkNeedsTimer s) (i : Nat) (p n : Half) (m : Bit) :
    BlinkNeedsTimer (s.doRegister i p n m) := by
  refine blinkNeedsTimer_of_slots hs (by simp) fun k l' hl' hb => ?_
  rcases State.doRegister_getElem?_cases hl' with rfl | hl
  · cases hb
  · exact ⟨l', hl, rfl, hb⟩

theorem advanceLed_blinkNeedsTimer {s : State} (hs : BlinkNeedsTimer s) (i : Nat) :
    BlinkNeedsTimer (s.advanceLed i) := by
  refine blinkNeedsTimer_of_slots hs (by simp) fun k l' hl' hb => ?_
  rcases State.advanceLed_getElem?_cases hl' with hl | ⟨l, hl, -, rfl | ⟨-, -, rfl⟩⟩
  · exact ⟨l', hl, rfl, hb⟩
  · cases hb
  · exact ⟨l, hl, rfl, hb⟩

theorem reset_not_blinking : ¬ Blinking State.reset := by
  rintro ⟨k, l, hl, -, hb⟩
  rw [eq_reset_of_getElem? hl] at hb
  cases hb

/-- Settles O39: the full path arbitrates, and nothing else stops the timer or makes a LED blink. -/
theorem stepKeepsBlinkNeedsTimer : Obligations.StepKeepsBlinkNeedsTimer := by
  intro s t hs h
  refine step_keeps (P := BlinkNeedsTimer) ?_ (fun _ _ hs => hs) (fun _ hs => hs) h hs
  intro i s t
  refine exec_keeps ?hans ?hreg ?hirq ?hfull ?hovf ?hother ?hserve ?hreset
  case hans => exact fun _ _ hs => hs
  case hreg => exact fun _ i p n m hs => doRegister_blinkNeedsTimer hs i p n m
  case hirq => exact fun _ hs => hs
  case hfull => exact fun s i l q _ _ _ _ => fullPath_blinkNeedsTimer s i l q
  case hovf => exact fun _ hs _ => hs
  case hother => exact fun _ hs _ => hs
  case hserve =>
    exact fun _ hs _ => serveInterrupt_keeps (P := BlinkNeedsTimer) (fun _ hs => hs)
      (fun _ i hs => advanceLed_blinkNeedsTimer hs i) (fun _ hs => hs) hs
  case hreset => exact fun _ _ hb => absurd hb reset_not_blinking

/-! ## The pads follow the trace -/

/-- The trace of `t` is that of `s` with some commands appended, and the pads of `t` are those of `s` with these
commands applied in order (R32, R33). -/
def PadsFollowTrace (s t : State) : Prop :=
  ∃ cmds, t.gpioTrace = s.gpioTrace ++ cmds ∧ t.pad = cmds.foldl Pads.apply s.pad

theorem PadsFollowTrace.of_eq {s t : State} (htrace : t.gpioTrace = s.gpioTrace) (hpad : t.pad = s.pad) :
    PadsFollowTrace s t :=
  ⟨[], by simpa using htrace, hpad⟩

theorem PadsFollowTrace.refl (s : State) : PadsFollowTrace s s := .of_eq rfl rfl

theorem PadsFollowTrace.trans {s t u : State} (h₁ : PadsFollowTrace s t) (h₂ : PadsFollowTrace t u) :
    PadsFollowTrace s u := by
  obtain ⟨c₁, htrace₁, hpad₁⟩ := h₁
  obtain ⟨c₂, htrace₂, hpad₂⟩ := h₂
  exact ⟨c₁ ++ c₂, by rw [htrace₂, htrace₁, List.append_assoc], by rw [hpad₂, hpad₁, List.foldl_append]⟩

theorem PadsFollowTrace.emit (s : State) (c : GpioCmd) : PadsFollowTrace s (s.emit c) := ⟨[c], rfl, rfl⟩

theorem doRegister_padsFollowTrace (s : State) (i : Nat) (p n : Half) (m : Bit) :
    PadsFollowTrace s (s.doRegister i p n m) := by
  rcases s.doRegister_cases i p n m with ⟨-, e⟩ | ⟨-, e⟩ <;> rw [e]
  · exact .emit (s.setSlot i _) _
  · exact .refl s

theorem registerEntry_padsFollowTrace (b : Nat → Option Config.BoardEntry) (s : State) (i : Nat) :
    PadsFollowTrace s (s.registerEntry b i) := by
  rcases State.registerEntry_cases b s i with ⟨e, -, he⟩ | ⟨-, he⟩ <;> rw [he]
  · exact doRegister_padsFollowTrace s i _ _ _
  · exact .refl s

theorem doInit_padsFollowTrace (b : Nat → Option Config.BoardEntry) (s : State) : PadsFollowTrace s (s.doInit b) := by
  have hentry := registerEntry_padsFollowTrace b
  rw [State.doInit_eq]
  exact (((hentry s 0).trans (hentry _ 1)).trans (hentry _ 2)).trans (hentry _ 3)

theorem fullPath_padsFollowTrace (s : State) (i : Nat) (l : LedSlot) (q : Request) :
    PadsFollowTrace s (s.fullPath i l q) := by
  rw [State.fullPath_eq]
  exact (PadsFollowTrace.of_eq (by simp) (by simp)).trans (.emit (s.setSlot i (q.store l)).arbitrate _)

theorem edgeToggle_padsFollowTrace (s : State) (l : LedSlot) : PadsFollowTrace s (s.edgeToggle l) := by
  rcases s.edgeToggle_cases l with ⟨-, e⟩ | ⟨-, e⟩ <;> rw [e]
  · exact .emit s _
  · exact .refl s

theorem countDown_padsFollowTrace (s : State) (i : Nat) (l : LedSlot) : PadsFollowTrace s (s.countDown i l) := by
  rcases s.countDown_cases i l with ⟨-, -, e⟩ | ⟨-, -, e⟩ | ⟨-, e⟩ <;> rw [e]
  · exact .emit (s.setSlot i l.expired) _
  · exact .of_eq rfl rfl
  · exact .refl s

theorem advanceLed_padsFollowTrace (s : State) (i : Nat) : PadsFollowTrace s (s.advanceLed i) := by
  rcases s.advanceLed_cases i with ⟨-, e⟩ | ⟨l, -, -, e⟩ <;> rw [e]
  · exact .refl s
  · exact (edgeToggle_padsFollowTrace s l).trans (countDown_padsFollowTrace _ i l)

theorem serveInterrupt_padsFollowTrace (s : State) : PadsFollowTrace s s.serveInterrupt :=
  serveInterrupt_keeps (P := PadsFollowTrace s) (fun _ h => h) (fun u i h => h.trans (advanceLed_padsFollowTrace u i))
    (fun _ h => h) (.refl s)

/-- Settles O26, by the operations an instruction is made of: each emits its commands one by one. -/
theorem traceExplainsThePads : Obligations.TraceExplainsThePads := by
  intro i s t hr h
  rcases exec_cases h hr with ⟨-, rfl⟩ | ⟨x, p, n, m, -, rfl⟩ | ⟨v, rfl⟩ | ⟨k, l, q, -, -, -, rfl⟩ | ⟨-, rfl⟩ |
    ⟨-, rfl⟩ | ⟨-, -, rfl⟩ | ⟨-, rfl⟩
  · exact doInit_padsFollowTrace Config.board s
  · exact doRegister_padsFollowTrace s x.toNat p n m
  · exact PadsFollowTrace.of_eq rfl rfl
  · exact fullPath_padsFollowTrace s k l q
  · exact PadsFollowTrace.of_eq rfl rfl
  · exact PadsFollowTrace.of_eq rfl rfl
  · exact serveInterrupt_padsFollowTrace s
  · exact PadsFollowTrace.refl _

/-- In one bit, the complement is one minus the bit. -/
theorem not_eq_one_sub : ∀ v : Bit, ~~~ v = 1 - v := by decide

/-- Settles O25: read after write on the pads, for a set and for a toggle. -/
theorem gpioCommandsDriveOnePad : Obligations.GpioCommandsDriveOnePad := by
  intro ps p n v
  refine ⟨?_, ?_, fun p' n' hne => ?_⟩
  · rw [Pads.level_apply_set, if_pos ⟨rfl, rfl⟩]
  · rw [Pads.level_apply_toggle, if_pos ⟨rfl, rfl⟩, not_eq_one_sub]
  · have hpad : ¬ (p = p' ∧ n = n') := fun ⟨hp, hn⟩ => hne (by rw [hp, hn])
    rw [Pads.level_apply_set, Pads.level_apply_toggle, if_neg hpad, if_neg hpad]
    exact ⟨rfl, rfl⟩

/-! ## The pads of registered LEDs are driven -/

theorem find_foldl_isSome (cmds : List GpioCmd) (ps : Pads) (p n : Half) (h : (Pads.find ps p n).isSome) :
    (Pads.find (cmds.foldl Pads.apply ps) p n).isSome := by
  induction cmds generalizing ps with
  | nil => exact h
  | cons c cmds ih => exact ih _ (Pads.find_apply_isSome ps c p n h)

/-- A driven pad stays driven. -/
theorem PadsFollowTrace.find_eq_some {s t : State} (h : PadsFollowTrace s t) {p n : Half}
    (hs : ∃ v, Pads.find s.pad p n = some v) : ∃ v, Pads.find t.pad p n = some v := by
  obtain ⟨cmds, -, hpad⟩ := h
  rw [hpad]
  exact Option.isSome_iff_exists.1 (find_foldl_isSome cmds s.pad p n (Option.isSome_iff_exists.2 hs))

/-- What registers nothing and only drives pads leaves the pads of the registered LEDs driven. -/
theorem padsDefined_of_slotsFrom {s t : State} (hs : PadsDefined s) (hpads : PadsFollowTrace s t)
    (hslots : SlotsFrom s t) : PadsDefined t := by
  intro k l' hl' hreg'
  obtain ⟨l, hl, hreach⟩ := hslots k l' hl'
  have hsame := sameBinding_of_changes hreach
  rw [hsame.port, hsame.pin]
  exact hpads.find_eq_some (hs k l hl (hsame.registered ▸ hreg'))

/-- Registration drives the new pad dark, and no pad becomes undriven (R68). -/
theorem doRegister_padsDefined {s : State} (hs : PadsDefined s) (i : Nat) (p n : Half) (m : Bit) :
    PadsDefined (s.doRegister i p n m) := by
  rcases s.doRegister_cases i p n m with ⟨-, e⟩ | ⟨-, e⟩
  · intro k l' hl' hreg'
    rcases State.doRegister_getElem?_cases hl' with rfl | hl
    · exact ⟨levelFor .off m, by rw [e, State.gpioSet_pad, Pads.apply, Pads.find_write, if_pos ⟨rfl, rfl⟩]⟩
    · exact (doRegister_padsFollowTrace s i p n m).find_eq_some (hs k l' hl hreg')
  · rwa [e]

/-- No LED is registered after RESET. -/
theorem reset_padsDefined (ps : Pads) (is : List Instant) :
    PadsDefined { State.reset with pad := ps, inputs := is } := by
  intro k l hl hreg
  rw [eq_reset_of_getElem? hl] at hreg
  cases hreg

/-- Settles O41: registration drives the pad, and every other operation keeps the bindings and the driven pads. -/
theorem stepKeepsPadsDefined : Obligations.StepKeepsPadsDefined := by
  intro s t hs h
  refine step_keeps (P := PadsDefined) ?_ (fun _ _ hs => hs) (fun _ hs => hs) h hs
  intro i s t
  refine exec_keeps ?hans ?hreg ?hirq ?hfull ?hovf ?hother ?hserve ?hreset
  case hans => exact fun _ _ hs => hs
  case hreg => exact fun _ i p n m hs => doRegister_padsDefined hs i p n m
  case hirq => exact fun _ hs => hs
  case hfull =>
    exact fun s i l q hl hreg _ hs =>
      padsDefined_of_slotsFrom hs (fullPath_padsFollowTrace s i l q) (fullPath_slotsFrom hl hreg q)
  case hovf => exact fun _ hs _ => hs
  case hother => exact fun _ hs _ => hs
  case hserve =>
    exact fun s hs _ =>
      padsDefined_of_slotsFrom hs (serveInterrupt_padsFollowTrace s) (serveInterrupt_slotsFrom s)
  case hreset => exact fun s _ => reset_padsDefined s.pad s.inputs

/-! ## The registers no rule reads -/

/-- The state with any other timer configuration, interrupt priority and low-power clock gating (R23, R27, R28). -/
def withUnread (s : State) (cfg : Option TimConfig) (prio : Option Nat) (lp : Bool) : State :=
  { s with timCfg := cfg, irqPrio := prio, timLpclkEn := lp }

/-- The two states agree on everything but the three registers no rule reads. -/
def AgreeOnRead (s s' : State) : Prop := ∃ cfg prio lp, s' = withUnread s cfg prio lp

section
variable {s s' : State}

theorem AgreeOnRead.led (h : AgreeOnRead s s') : s'.led = s.led := by
  obtain ⟨cfg, prio, lp, rfl⟩ := h
  rfl

theorem AgreeOnRead.currentSlot (h : AgreeOnRead s s') : s'.currentSlot = s.currentSlot := by
  obtain ⟨cfg, prio, lp, rfl⟩ := h
  rfl

theorem AgreeOnRead.timRun (h : AgreeOnRead s s') : s'.timRun = s.timRun := by
  obtain ⟨cfg, prio, lp, rfl⟩ := h
  rfl

theorem AgreeOnRead.timClkEn (h : AgreeOnRead s s') : s'.timClkEn = s.timClkEn := by
  obtain ⟨cfg, prio, lp, rfl⟩ := h
  rfl

theorem AgreeOnRead.timOvf (h : AgreeOnRead s s') : s'.timOvf = s.timOvf := by
  obtain ⟨cfg, prio, lp, rfl⟩ := h
  rfl

theorem AgreeOnRead.isrGuard (h : AgreeOnRead s s') : s'.isrGuard = s.isrGuard := by
  obtain ⟨cfg, prio, lp, rfl⟩ := h
  rfl

theorem AgreeOnRead.fetch (h : AgreeOnRead s s') : s'.fetch = s.fetch := by
  obtain ⟨cfg, prio, lp, rfl⟩ := h
  rfl

theorem AgreeOnRead.anyBlink (h : AgreeOnRead s s') : s'.anyBlink = s.anyBlink := by
  unfold State.anyBlink
  rw [h.led]

theorem AgreeOnRead.slotAt (h : AgreeOnRead s s') (i : Nat) : s'.slotAt i = s.slotAt i := by
  rw [State.slotAt_eq, State.slotAt_eq, h.led]

theorem AgreeOnRead.validSlot (h : AgreeOnRead s s') (i : Nat) : s'.validSlot i = s.validSlot i := by
  unfold State.validSlot
  rw [h.slotAt]

theorem AgreeOnRead.queryState (h : AgreeOnRead s s') (i : Nat) : s'.queryState i = s.queryState i := by
  unfold State.queryState
  rw [h.slotAt]

/-- An update that neither reads nor writes the three registers. -/
theorem AgreeOnRead.map (h : AgreeOnRead s s') (f : State → State)
    (hf : ∀ s cfg prio lp, f (withUnread s cfg prio lp) = withUnread (f s) cfg prio lp) :
    AgreeOnRead (f s) (f s') := by
  obtain ⟨cfg, prio, lp, rfl⟩ := h
  exact ⟨cfg, prio, lp, hf s cfg prio lp⟩

theorem AgreeOnRead.answer (h : AgreeOnRead s s') (v : Resp) : AgreeOnRead (s.answer v) (s'.answer v) :=
  h.map (·.answer v) fun _ _ _ _ => rfl

theorem AgreeOnRead.setSlot (h : AgreeOnRead s s') (i : Nat) (l : LedSlot) :
    AgreeOnRead (s.setSlot i l) (s'.setSlot i l) :=
  h.map (·.setSlot i l) fun _ _ _ _ => rfl

theorem AgreeOnRead.emit (h : AgreeOnRead s s') (c : GpioCmd) : AgreeOnRead (s.emit c) (s'.emit c) :=
  h.map (·.emit c) fun _ _ _ _ => rfl

/-- `tim_enable` writes the configuration and the low-power clock gating, without reading them (R76). -/
theorem AgreeOnRead.timEnable (h : AgreeOnRead s s') : AgreeOnRead s.timEnable s'.timEnable := by
  obtain ⟨cfg, prio, lp, rfl⟩ := h
  exact ⟨some enabledConfig, prio, true, rfl⟩

theorem AgreeOnRead.arbitrate (h : AgreeOnRead s s') : AgreeOnRead s.arbitrate s'.arbitrate := by
  unfold State.arbitrate
  rw [h.anyBlink, State.timIsEnabled_eq, State.timIsEnabled_eq, h.timRun]
  split
  · split
    · exact h
    · exact h.timEnable
  · split
    · exact h.map State.timDisable fun _ _ _ _ => rfl
    · exact h

theorem AgreeOnRead.applyPin (h : AgreeOnRead s s') (l : LedSlot) (q : Request) :
    AgreeOnRead (s.applyPin l q) (s'.applyPin l q) := by
  unfold State.applyPin
  rw [h.currentSlot]
  exact h.emit _

theorem AgreeOnRead.setLedState (h : AgreeOnRead s s') (i : Nat) (q : Request) :
    AgreeOnRead (s.setLedState i q) (s'.setLedState i q) := by
  unfold State.setLedState
  rw [h.validSlot]
  split
  · exact h.answer _
  · split
    · exact h.answer _
    · exact (((h.setSlot i _).arbitrate).applyPin _ q).answer _

theorem AgreeOnRead.doRegister (h : AgreeOnRead s s') (i : Nat) (p n : Half) (m : Bit) :
    AgreeOnRead (s.doRegister i p n m) (s'.doRegister i p n m) := by
  unfold State.doRegister
  split
  · exact (h.setSlot i _).emit _
  · exact h

theorem AgreeOnRead.registerEntry (h : AgreeOnRead s s') (b : Nat → Option Config.BoardEntry) (i : Nat) :
    AgreeOnRead (s.registerEntry b i) (s'.registerEntry b i) := by
  unfold State.registerEntry
  split
  · exact h.doRegister i _ _ _
  · exact h

/-- INIT writes the interrupt priority, without reading it (R69). -/
theorem AgreeOnRead.doInit (h : AgreeOnRead s s') (b : Nat → Option Config.BoardEntry) :
    AgreeOnRead (s.doInit b) (s'.doInit b) := by
  rw [State.doInit_eq, State.doInit_eq]
  obtain ⟨cfg, prio, lp, e⟩ := (((h.registerEntry b 0).registerEntry b 1).registerEntry b 2).registerEntry b 3
  rw [e]
  exact ⟨cfg, some Config.irqPriority, lp, rfl⟩

theorem AgreeOnRead.edgeToggle (h : AgreeOnRead s s') (l : LedSlot) : AgreeOnRead (s.edgeToggle l) (s'.edgeToggle l) := by
  unfold State.edgeToggle
  rw [h.currentSlot]
  split
  · exact h.emit _
  · exact h

theorem AgreeOnRead.countDown (h : AgreeOnRead s s') (i : Nat) (l : LedSlot) :
    AgreeOnRead (s.countDown i l) (s'.countDown i l) := by
  unfold State.countDown
  split
  · split
    · exact (h.setSlot i _).emit _
    · exact h.setSlot i _
  · exact h

theorem AgreeOnRead.advanceLed (h : AgreeOnRead s s') (i : Nat) : AgreeOnRead (s.advanceLed i) (s'.advanceLed i) := by
  unfold State.advanceLed
  rw [h.slotAt]
  split
  · split
    · exact (h.edgeToggle _).countDown i _
    · exact h
  · exact h

theorem AgreeOnRead.slotAdvance (h : AgreeOnRead s s') : AgreeOnRead s.slotAdvance s'.slotAdvance := by
  rw [State.slotAdvance_eq, State.slotAdvance_eq]
  have hbump : AgreeOnRead s.bumpSlot s'.bumpSlot := h.map State.bumpSlot fun _ _ _ _ => rfl
  exact (((hbump.advanceLed 0).advanceLed 1).advanceLed 2).advanceLed 3

theorem AgreeOnRead.serveInterrupt (h : AgreeOnRead s s') : AgreeOnRead s.serveInterrupt s'.serveInterrupt := by
  have hadvance : AgreeOnRead (if s.timOvf then s.slotAdvance else s) (if s'.timOvf then s'.slotAdvance else s') := by
    rw [h.timOvf]
    split
    · exact h.slotAdvance
    · exact h
  exact hadvance.map State.clearFlags fun _ _ _ _ => rfl

/-- From states that agree, an instruction gives states that agree. -/
theorem AgreeOnRead.exec (h : AgreeOnRead s s') (i : Instr) {t : State} (ht : exec i s = .next t) :
    ∃ t', Machine.exec i s' = .next t' ∧ AgreeOnRead t t' := by
  cases i with
  | init => cases ht; exact ⟨_, rfl, (h.doInit _).answer _⟩
  | register x p n m => cases ht; exact ⟨_, rfl, (h.doRegister _ p n m).answer _⟩
  | setstate x st m r => cases ht; exact ⟨_, rfl, h.setLedState _ _⟩
  | set x st => cases ht; exact ⟨_, rfl, h.setLedState _ _⟩
  | blink x m c => cases ht; exact ⟨_, rfl, h.setLedState _ _⟩
  | get x =>
    cases ht
    refine ⟨_, rfl, ?_⟩
    rw [h.queryState]
    exact h.answer _
  | toggle x =>
    cases ht
    refine ⟨_, rfl, ?_⟩
    rw [h.queryState]
    exact h.setLedState _ _
  | overflow =>
    cases ht
    refine ⟨_, rfl, ?_⟩
    rw [h.timRun]
    split
    · exact h.map State.raiseOverflow fun _ _ _ _ => rfl
    · exact h
  | otherflag =>
    cases ht
    refine ⟨_, rfl, ?_⟩
    rw [h.timClkEn]
    split
    · exact h.map State.raiseOther fun _ _ _ _ => rfl
    · exact h
  | isr =>
    cases ht
    refine ⟨_, rfl, ?_⟩
    rw [h.isrGuard]
    split
    · exact h.serveInterrupt
    · exact h
  | reset =>
    cases ht
    obtain ⟨cfg, prio, lp, rfl⟩ := h
    exact ⟨_, rfl, none, none, false, rfl⟩

/-- From states that agree, a step gives states that agree. -/
theorem AgreeOnRead.step (h : AgreeOnRead s s') {t : State} (ht : step s = .next t) :
    ∃ t', Machine.step s' = .next t' ∧ AgreeOnRead t t' := by
  have hc : AgreeOnRead s.consume s'.consume := h.map State.consume fun _ _ _ _ => rfl
  unfold Machine.step
  rw [h.fetch]
  rcases step_cases ht with ⟨i, hf, hi⟩ | ⟨e, hf, rfl⟩ <;> rw [hf]
  · exact hc.exec i hi
  · exact ⟨_, rfl, hc.answer _⟩

end

/-- Settles O52: every operation takes states that agree on what is read to states that agree on it. -/
theorem unreadRegistersDoNotMatter : Obligations.UnreadRegistersDoNotMatter := by
  intro s t cfg prio lp h
  have hagree : AgreeOnRead s (withUnread s cfg prio lp) := ⟨cfg, prio, lp, rfl⟩
  obtain ⟨_, ht', cfg', prio', lp', rfl⟩ := hagree.step h
  exact ⟨cfg', prio', lp', ht'⟩

/-! ## The interrupt line, the response, RESET and the polarity -/

/-- The interrupt line's enable and priority are the same (R28). -/
def SameIrq (s t : State) : Prop := t.irqEn = s.irqEn ∧ t.irqPrio = s.irqPrio

/-- The handler leaves the interrupt line as it was (R126). -/
theorem serveInterrupt_sameIrq (s : State) : SameIrq s s.serveInterrupt := by
  refine serveInterrupt_keeps (P := SameIrq s) (fun _ h => h) (fun u i h => ?_) (fun _ h => h) ⟨rfl, rfl⟩
  exact ⟨(u.advanceLed_irqEn i).trans h.1, (u.advanceLed_irqPrio i).trans h.2⟩

theorem fullPath_sameIrq (s : State) (i : Nat) (l : LedSlot) (q : Request) : SameIrq s (s.fullPath i l q) := by
  rw [State.fullPath_eq]
  exact ⟨by simp, by simp⟩

/-- Settles O47, by what an instruction other than RESET can do. -/
theorem onlyInitAndResetWriteTheIrq : Obligations.OnlyInitAndResetWriteTheIrq := by
  intro i s t h hinit hr
  rcases exec_cases h hr with ⟨hi, -⟩ | ⟨x, p, n, m, -, rfl⟩ | ⟨v, rfl⟩ | ⟨k, l, q, -, -, -, rfl⟩ | ⟨-, rfl⟩ |
    ⟨-, rfl⟩ | ⟨-, -, rfl⟩ | ⟨-, rfl⟩
  · exact absurd hi hinit
  · exact ⟨by simp, by simp⟩
  · exact ⟨rfl, rfl⟩
  · exact fullPath_sameIrq s k l q
  · exact ⟨rfl, rfl⟩
  · exact ⟨rfl, rfl⟩
  · exact serveInterrupt_sameIrq s
  · exact ⟨rfl, rfl⟩

/-- The handler answers nothing (R30). -/
theorem serveInterrupt_resp (s : State) : s.serveInterrupt.resp = s.resp :=
  serveInterrupt_keeps (P := fun u => u.resp = s.resp) (fun _ h => h) (fun u i h => (u.advanceLed_resp i).trans h)
    (fun _ h => h) rfl

/-- Settles O51: OVERFLOW and OTHERFLAG raise their flag, the ISR runs the handler, and none of them answers. -/
theorem eventsLeaveTheResponse : Obligations.EventsLeaveTheResponse := by
  intro i s t h hw hr
  cases i with
  | overflow =>
    rw [exec_overflow] at h
    cases h
    split <;> rfl
  | otherflag =>
    rw [exec_otherflag] at h
    cases h
    split <;> rfl
  | isr =>
    rw [exec_isr] at h
    cases h
    split
    · exact serveInterrupt_resp s
    · rfl
  | reset => exact absurd rfl hr
  | init | register | setstate | set | blink | get | toggle => cases hw

/-- Settles O1, row by row of R39. -/
theorem resetTakesTheTableValues : Obligations.ResetTakesTheTableValues :=
  fun s => ⟨_, exec_reset s, fun _ hi => reset_getElem? hi, rfl, rfl, rfl, rfl, rfl, rfl, rfl, rfl, rfl, rfl, rfl, rfl,
    rfl, rfl⟩

/-- Settles O24, row by row. -/
theorem polarityTable : Obligations.PolarityTable := by
  refine ⟨?_, ?_, ?_, ?_⟩ <;> decide

end Sys2Proof.StateProofs
end

section
/-! The proofs about the encoding (`30_encoding.md`): the order of decoding read off the opcode map, the step of a word
on `cmd`, and the response of each command. -/

namespace Sys2Proof.EncodingProofs

open Sys2Proof.Machine Sys2Proof.Safety

/-! ## The fields of a word, as the statements write them -/

theorem opcodeField_toNat (w : CmdWord) : (opcodeField w).toNat = w.toNat / 2 ^ 44 := by
  simp only [opcodeField, BitVec.extractLsb'_toNat, Nat.shiftRight_eq_div_pow]
  omega

theorem stateField_toNat (w : CmdWord) : (stateField w).toNat = w.toNat / 2 ^ 32 % 4 := by
  simp only [stateField, BitVec.extractLsb'_toNat, Nat.shiftRight_eq_div_pow]

theorem opcodeField_and (w v : CmdWord) : opcodeField (w &&& v) = opcodeField w &&& opcodeField v := by
  apply BitVec.eq_of_getLsbD_eq
  intro k hk
  simp [opcodeField, hk]

/-! ## The opcode map -/

/-- The decoder's rows are the rows of R57. -/
theorem mem_opcodeRows {p : CmdWord × CmdWord} : p ∈ opcodeRows ↔ ∃ r : Row, p = (r.fixedBits, r.pattern) := by
  constructor
  · intro h
    simp only [opcodeRows, List.mem_cons, List.not_mem_nil, or_false] at h
    rcases h with rfl | rfl | rfl | rfl | rfl | rfl | rfl
    · exact ⟨.init, rfl⟩
    · exact ⟨.register, rfl⟩
    · exact ⟨.setstate, rfl⟩
    · exact ⟨.set, rfl⟩
    · exact ⟨.blink, rfl⟩
    · exact ⟨.get, rfl⟩
    · exact ⟨.toggle, rfl⟩
  · rintro ⟨r, rfl⟩
    cases r <;> simp [opcodeRows, Row.fixedBits, Row.pattern]

theorem selects_iff {r : Row} {w : CmdWord} : r.selects w = true ↔ w &&& r.fixedBits = r.pattern := by
  simp [Row.selects]

theorem matchesRow_iff {w : CmdWord} : MatchesRow w ↔ ∃ r : Row, r.selects w = true := by
  simp only [MatchesRow, mem_opcodeRows, selects_iff]
  constructor
  · rintro ⟨_, ⟨r, rfl⟩, h⟩
    exact ⟨r, h⟩
  · rintro ⟨r, h⟩
    exact ⟨_, ⟨r, rfl⟩, h⟩

/-- An opcode selects the row whose pattern carries it. -/
theorem ofOpcode_eq_some {op : BitVec 4} {r : Row} : Row.ofOpcode op = some r ↔ op = opcodeField r.pattern := by
  revert op
  cases r <;> decide

/-- An opcode selects no row when it is 0x0 or 0x8 to 0xF (R58). -/
theorem ofOpcode_eq_none {op : BitVec 4} : Row.ofOpcode op = none ↔ op.toNat = 0 ∨ 8 ≤ op.toNat := by
  revert op
  decide

/-- Every bit of the opcode is fixed in every row (R57). -/
theorem opcodeField_fixedBits (r : Row) : opcodeField r.fixedBits = BitVec.allOnes 4 := by
  cases r <;> decide

/-- The row a word selects is the one its opcode selects: the rows match disjoint sets of words (R57). -/
theorem ofOpcode_of_selects {r : Row} {w : CmdWord} (h : r.selects w = true) :
    Row.ofOpcode (opcodeField w) = some r := by
  rw [ofOpcode_eq_some, ← selects_iff.1 h, opcodeField_and, opcodeField_fixedBits, BitVec.and_allOnes]

theorem reservedOpcode_iff {w : CmdWord} : ReservedOpcode w ↔ Row.ofOpcode (opcodeField w) = none := by
  rw [ofOpcode_eq_none, opcodeField_toNat, ReservedOpcode]

/-- The row has a state operand (R55). -/
def CarriesState (r : Row) : Prop := r = .setstate ∨ r = .set

theorem carriesState_iff {op : BitVec 4} {r : Row} (h : Row.ofOpcode op = some r) :
    CarriesState r ↔ op.toNat = 3 ∨ op.toNat = 4 := by
  rw [ofOpcode_eq_some] at h
  subst h
  unfold CarriesState
  cases r <;> decide

theorem reservedState_iff {r : Row} {w : CmdWord} (h : Row.ofOpcode (opcodeField w) = some r) :
    ReservedState w ↔ CarriesState r ∧ stateField w = 3 := by
  rw [carriesState_iff h, ReservedState, ← opcodeField_toNat, ← stateField_toNat, ← BitVec.toNat_inj]
  rfl

/-! ## The four cases of decoding (R61) -/

theorem decode_of_ofOpcode {r : Row} {w : CmdWord} (h : Row.ofOpcode (opcodeField w) = some r) :
    decode w = if r.selects w then r.read w else .error .mustBeZero := by
  simp [decode, h]

theorem decode_of_selects {r : Row} {w : CmdWord} (h : r.selects w = true) : decode w = r.read w := by
  rw [decode_of_ofOpcode (ofOpcode_of_selects h), if_pos h]

theorem decode_of_reservedOpcode {w : CmdWord} (h : ReservedOpcode w) : decode w = .error .reservedOpcode := by
  simp [decode, reservedOpcode_iff.1 h]

theorem decode_of_not_matchesRow {w : CmdWord} (hop : ¬ ReservedOpcode w) (hrow : ¬ MatchesRow w) :
    decode w = .error .mustBeZero := by
  obtain ⟨r, hr⟩ := Option.ne_none_iff_exists'.1 (mt reservedOpcode_iff.2 hop)
  rw [decode_of_ofOpcode hr, if_neg fun h => hrow (matchesRow_iff.2 ⟨r, h⟩)]

/-- A word with a row's opcode that the row does not select (R59). -/
theorem decode_of_fails_row {r : Row} {w : CmdWord} (hop : w.toNat / 2 ^ 44 = r.pattern.toNat / 2 ^ 44)
    (hrow : w &&& r.fixedBits ≠ r.pattern) : decode w = .error .mustBeZero := by
  have hr : Row.ofOpcode (opcodeField w) = some r := by
    rw [ofOpcode_eq_some, ← BitVec.toNat_inj, opcodeField_toNat, opcodeField_toNat, hop]
  rw [decode_of_ofOpcode hr, if_neg (mt selects_iff.1 hrow)]

theorem read_of_reservedState {r : Row} {w : CmdWord} (hr : CarriesState r) (hw : stateField w = 3) :
    r.read w = .error .reservedState := by
  have hcode : LedState.ofCode (stateField w) = none := (LedState.ofCode_eq_none _).2 hw
  rcases hr with rfl | rfl <;> simp [Row.read, withState, hcode]

/-- A state code other than 3 is an operand. -/
theorem withState_eq_ok {w : CmdWord} (h : stateField w ≠ 3) (f : LedState → Instr) : ∃ i, withState w f = .ok i := by
  obtain ⟨st, hst⟩ := Option.ne_none_iff_exists'.1 (mt (LedState.ofCode_eq_none _).1 h)
  exact ⟨f st, by simp [withState, hst]⟩

theorem read_eq_ok {r : Row} {w : CmdWord} (h : ¬ (CarriesState r ∧ stateField w = 3)) : ∃ i, r.read w = .ok i := by
  cases r with
  | setstate => exact withState_eq_ok (fun hw => h ⟨.inl rfl, hw⟩) _
  | set => exact withState_eq_ok (fun hw => h ⟨.inr rfl, hw⟩) _
  | init | register | blink | get | toggle => exact ⟨_, rfl⟩

theorem decode_of_reservedState {w : CmdWord} (hrow : MatchesRow w) (hst : ReservedState w) :
    decode w = .error .reservedState := by
  obtain ⟨r, hr⟩ := matchesRow_iff.1 hrow
  obtain ⟨hc, hw⟩ := (reservedState_iff (ofOpcode_of_selects hr)).1 hst
  rw [decode_of_selects hr, read_of_reservedState hc hw]

theorem decode_eq_ok {w : CmdWord} (hrow : MatchesRow w) (hst : ¬ ReservedState w) : ∃ i, decode w = .ok i := by
  obtain ⟨r, hr⟩ := matchesRow_iff.1 hrow
  rw [decode_of_selects hr]
  exact read_eq_ok (mt (reservedState_iff (ofOpcode_of_selects hr)).2 hst)

/-- A word outside the last case of R61 is illegal. -/
theorem decode_eq_error {w : CmdWord} (h : ¬ (MatchesRow w ∧ ¬ ReservedState w)) : ∃ e, decode w = .error e := by
  by_cases hop : ReservedOpcode w
  · exact ⟨_, decode_of_reservedOpcode hop⟩
  by_cases hrow : MatchesRow w
  · exact ⟨_, decode_of_reservedState hrow (not_not.1 fun hst => h ⟨hrow, hst⟩)⟩
  · exact ⟨_, decode_of_not_matchesRow hop hrow⟩

/-! ## The step of a word on `cmd` -/

section
variable {s : State} {w : CmdWord} {rest : List Instant}

theorem fetch_of_cmd (hs : s.inputs = ⟨false, .cmd w⟩ :: rest) : s.fetch = decode w := by
  simp [State.fetch, State.nextInstant, hs, Instant.cause, Input.cause]

theorem consume_of_inputs {c : Instant} (hs : s.inputs = c :: rest) : s.consume = { s with inputs := rest } := by
  simp [State.consume, hs]

theorem step_of_decode_ok (hs : s.inputs = ⟨false, .cmd w⟩ :: rest) {i : Instr} (h : decode w = .ok i) :
    step s = exec i { s with inputs := rest } := by
  simp only [step, fetch_of_cmd hs, h, consume_of_inputs hs]

/-- An illegal word changes nothing but `resp` (R58). -/
theorem step_of_decode_error (hs : s.inputs = ⟨false, .cmd w⟩ :: rest) {e : Illegal} (h : decode w = .error e) :
    step s = .next { s with inputs := rest, resp := 0xFE } := by
  simp only [step, fetch_of_cmd hs, h, consume_of_inputs hs]
  rfl

end

/-! ## The statements about decoding -/

/-- Settles O6, by the four cases of R61. -/
theorem commandsDecodeInOrder : Obligations.CommandsDecodeInOrder := by
  intro w
  refine ⟨decode_of_reservedOpcode, decode_of_not_matchesRow, decode_of_reservedState, decode_eq_ok,
    fun s rest hs => ⟨?_, ?_⟩⟩
  · rintro ⟨hrow, hst⟩
    obtain ⟨i, hi⟩ := decode_eq_ok hrow hst
    exact ⟨i, hi, step_of_decode_ok hs hi⟩
  · intro h
    obtain ⟨e, he⟩ := decode_eq_error h
    exact step_of_decode_error hs he

/-- Settles O11, by the first case of R61. -/
theorem reservedOpcodeIsAnswered : Obligations.ReservedOpcodeIsAnswered :=
  ⟨fun _ _ _ hs hop => step_of_decode_error hs (decode_of_reservedOpcode hop), .inl rfl⟩

/-- Settles O12: the word's opcode selects the row whose test it fails. -/
theorem nonzeroReservedBitIsAnswered : Obligations.NonzeroReservedBitIsAnswered := by
  intro s w rest p hs hp hop hrow
  obtain ⟨r, rfl⟩ := mem_opcodeRows.1 hp
  exact step_of_decode_error hs (decode_of_fails_row hop hrow)

/-- Settles O13: whatever the word's other bits, it is outside the last case of R61. -/
theorem reservedStateCodeIsAnswered : Obligations.ReservedStateCodeIsAnswered := by
  intro s w rest hs hst
  obtain ⟨e, he⟩ := decode_eq_error fun h => h.2 hst
  exact step_of_decode_error hs he

/-- Settles O7: each word by the row it selects and the operands the row reads. -/
theorem workedWordsDecode : Obligations.WorkedWordsDecode :=
  ⟨decode_of_selects (r := .init) rfl, decode_of_selects (r := .register) rfl,
    decode_of_selects (r := .register) rfl, decode_of_selects (r := .setstate) rfl,
    decode_of_selects (r := .setstate) rfl, decode_of_selects (r := .set) rfl, decode_of_selects (r := .set) rfl,
    decode_of_selects (r := .set) rfl, decode_of_selects (r := .blink) rfl, decode_of_selects (r := .get) rfl,
    decode_of_selects (r := .blink) rfl, decode_of_selects (r := .blink) rfl, decode_of_selects (r := .get) rfl,
    decode_of_selects (r := .toggle) rfl⟩

/-! ## The responses (R62) -/

/-- The primitive answers `OK` for a valid index and `ERR_INDEX` for any other (R89, R98). -/
theorem setLedState_resp (s : State) (x : Index) (q : Request) :
    (Valid s x → (s.setLedState x.toNat q).resp = 0x00) ∧ (¬ Valid s x → (s.setLedState x.toNat q).resp = 0xFF) := by
  rcases s.setLedState_cases x.toNat q with ⟨hno, e⟩ | ⟨l, hl, hr, -, e⟩ | ⟨l, hl, hr, -, e⟩ <;> rw [e]
  · refine ⟨?_, fun _ => rfl⟩
    rintro ⟨l, hl, hr⟩
    rw [hno l hl] at hr
    cases hr
  · exact ⟨fun _ => rfl, fun hv => absurd ⟨l, hl, hr⟩ hv⟩
  · exact ⟨fun _ => rfl, fun hv => absurd ⟨l, hl, hr⟩ hv⟩

/-- Each state-setting command is the primitive on a request of its own (R94 to R97). -/
theorem exec_eq_setLedState {i : Instr} {x : Index}
    (hi : (∃ st m r, i = .setstate x st m r) ∨ (∃ st, i = .set x st) ∨ (∃ m c, i = .blink x m c) ∨ i = .toggle x)
    (s : State) : ∃ q, exec i s = .next (s.setLedState x.toNat q) := by
  rcases hi with ⟨st, m, r, rfl⟩ | ⟨st, rfl⟩ | ⟨m, c, rfl⟩ | rfl
  · exact ⟨_, exec_setstate x st m r s⟩
  · exact ⟨_, exec_set x st s⟩
  · exact ⟨_, exec_blink x m c s⟩
  · exact ⟨_, exec_toggle x s⟩

/-- GET's codes (R62). -/
theorem stateResp_cases (st : LedState) : stateResp st = 0x00 ∨ stateResp st = 0x01 ∨ stateResp st = 0x02 := by
  cases st with
  | off => exact .inl rfl
  | on => exact .inr (.inl rfl)
  | blink => exact .inr (.inr rfl)

/-- Settles O50, row by row of R62's table. -/
theorem responsesAreThoseOfTheTable : Obligations.ResponsesAreThoseOfTheTable := by
  refine ⟨fun i s t h => ⟨?init, ?register, ?mutation, ?get⟩, ?illegal⟩
  case init =>
    rintro rfl
    rw [exec_init] at h
    cases h
    rfl
  case register =>
    rintro x p n m rfl
    rw [exec_register] at h
    cases h
    rfl
  case mutation =>
    intro x hi
    obtain ⟨q, hq⟩ := exec_eq_setLedState hi s
    rw [hq] at h
    cases h
    exact setLedState_resp s x q
  case get =>
    rintro x rfl
    rw [exec_get] at h
    cases h
    exact stateResp_cases _
  case illegal =>
    intro s t w e rest hs he ht
    rw [step_of_decode_error hs he] at ht
    cases ht
    rfl

end Sys2Proof.EncodingProofs
end

section
/-! The proofs about the Registry commands (`40_registry.md`): what registering one index leaves, what registering a list
of indices of a board profile leaves, and GET's answer. -/

namespace Sys2Proof.RegistryProofs

open Sys2Proof.Machine Sys2Proof.Safety

/-! ## What registration leaves as it was -/

/-- The timer, the interrupt line and the schedule are the same. -/
structure SameTimerAndIrq (s t : State) : Prop where
  timer : SameTimer s t
  irqAndInputs : SameIrqAndInputs s t

theorem SameTimerAndIrq.refl (s : State) : SameTimerAndIrq s s :=
  ⟨⟨rfl, rfl, rfl, rfl, rfl, rfl, rfl, rfl⟩, ⟨rfl, rfl, rfl⟩⟩

theorem SameTimerAndIrq.doRegister {s u : State} (h : SameTimerAndIrq s u) (i : Nat) (p n : Half) (m : Bit) :
    SameTimerAndIrq s (u.doRegister i p n m) := by
  obtain ⟨⟨hslot, hrun, hclk, hlp, hie, hovf, hother, hcfg⟩, ⟨hen, hprio, hin⟩⟩ := h
  constructor
  · constructor <;> simpa
  · constructor <;> simpa

theorem SameTimerAndIrq.registerEntry {s u : State} (h : SameTimerAndIrq s u)
    (b : Nat → Option Config.BoardEntry) (i : Nat) : SameTimerAndIrq s (u.registerEntry b i) := by
  rcases State.registerEntry_cases b u i with ⟨e, -, he⟩ | ⟨-, he⟩ <;> rw [he]
  · exact h.doRegister i e.port e.pin e.mode
  · exact h

theorem SameTimerAndIrq.foldl_registerEntry {s u : State} (h : SameTimerAndIrq s u)
    (b : Nat → Option Config.BoardEntry) (is : List Nat) :
    SameTimerAndIrq s (is.foldl (State.registerEntry b) u) := by
  induction is generalizing u with
  | nil => exact h
  | cons i is ih => exact ih (h.registerEntry b i)

/-! ## One index in range (R68) -/

section
variable {i : Nat} (hi : i < 4) (s : State) (p n : Half) (m : Bit)
include hi

theorem doRegister_eq : s.doRegister i p n m =
    (s.setSlot i ⟨true, p, n, m, .off, 0, 0⟩).gpioSet p n (levelFor .off m) := by
  rcases s.doRegister_cases i p n m with ⟨-, e⟩ | ⟨hge, -⟩
  · exact e
  · omega

/-- The one slot holds the binding, dark; every other slot is as it was. -/
theorem doRegister_getElem? (j : Nat) : (s.doRegister i p n m).led[j]? =
    if j = i then some ⟨true, p, n, m, .off, 0, 0⟩ else s.led[j]? := by
  rw [doRegister_eq hi, State.gpioSet_led, State.setSlot_getElem?]
  by_cases hj : j = i
  · rw [if_pos ⟨hj.symm, hj ▸ hi⟩, if_pos hj]
  · rw [if_neg (fun h => hj h.1.symm), if_neg hj]

theorem doRegister_gpioTrace :
    (s.doRegister i p n m).gpioTrace = s.gpioTrace ++ [.set p n (levelFor .off m)] := by
  rw [doRegister_eq hi, State.gpioSet_gpioTrace, State.setSlot_gpioTrace]

/-- The pad of the binding is dark; every other pad is as it was. -/
theorem doRegister_padLevel (p' n' : Half) : (s.doRegister i p n m).padLevel p' n' =
    if p = p' ∧ n = n' then levelFor .off m else s.padLevel p' n' := by
  rw [doRegister_eq hi, State.padLevel_eq, State.gpioSet_pad, State.setSlot_pad, Pads.level_apply_set,
    State.padLevel_eq]

end

/-- An index out of range is a silent no-op. -/
theorem doRegister_of_ge {i : Nat} (hi : 4 ≤ i) (s : State) (p n : Half) (m : Bit) : s.doRegister i p n m = s := by
  rcases s.doRegister_cases i p n m with ⟨hlt, -⟩ | ⟨-, e⟩
  · omega
  · exact e

/-- The OFF row of the polarity table (R16). -/
theorem levelFor_off (m : Bit) : levelFor .off m = if m = 0 then 1 else 0 := by
  simp only [levelFor, Shown.level, eq_comm]

/-- Settles O15, by what registering one index leaves in each field. -/
theorem registerStoresAndDrivesDark : Obligations.RegisterStoresAndDrivesDark := by
  intro s x p n m
  rw [exec_register, ← levelFor_off]
  refine ⟨fun hx => ⟨_, rfl, ?slot, ?otherSlots, ?trace, ?pin, ?otherPads, ?timer, ?irqAndInputs, rfl⟩,
    fun hx => ?none⟩
  case slot => rw [State.answer_led, doRegister_getElem? hx, if_pos rfl]
  case otherSlots =>
    intro j hj
    rw [State.answer_led, doRegister_getElem? hx, if_neg hj]
  case trace => exact doRegister_gpioTrace hx s p n m
  case pin =>
    have hpin := doRegister_padLevel hx s p n m p n
    rwa [if_pos ⟨rfl, rfl⟩] at hpin
  case otherPads =>
    intro p' n' hne
    have hpad := doRegister_padLevel hx s p n m p' n'
    rwa [if_neg (fun ⟨hp, hn⟩ => hne (by rw [hp, hn]))] at hpad
  case timer => exact { ((SameTimerAndIrq.refl s).doRegister x.toNat p n m).timer with }
  case irqAndInputs => exact { ((SameTimerAndIrq.refl s).doRegister x.toNat p n m).irqAndInputs with }
  case none => rw [doRegister_of_ge hx]; rfl

/-! ## The entries of a board profile (R69) -/

/-- The slot a board entry leaves (R68). -/
def entrySlot (e : Config.BoardEntry) : LedSlot := ⟨true, e.port, e.pin, e.mode, .off, 0, 0⟩

/-- The command that drives a board entry's pin dark (R68). -/
def entryCmd (e : Config.BoardEntry) : GpioCmd := .set e.port e.pin (levelFor .off e.mode)

/-- The level a board entry gives the pad `(p, n)`, if it is the entry's own. -/
def entryLevel (p n : Half) (e : Config.BoardEntry) : Option Bit :=
  if e.port = p ∧ e.pin = n then some (levelFor .off e.mode) else none

section
variable (b : Nat → Option Config.BoardEntry) {i : Nat} (hi : i < 4) (s : State)
include hi

theorem registerEntry_getElem? (j : Nat) : (s.registerEntry b i).led[j]? =
    if j = i then ((b i).map entrySlot).or s.led[j]? else s.led[j]? := by
  rcases State.registerEntry_cases b s i with ⟨e, hb, he⟩ | ⟨hb, he⟩ <;> rw [he, hb]
  · exact doRegister_getElem? hi s e.port e.pin e.mode j
  · exact (ite_self _).symm

theorem registerEntry_gpioTrace :
    (s.registerEntry b i).gpioTrace = s.gpioTrace ++ ((b i).map entryCmd).toList := by
  rcases State.registerEntry_cases b s i with ⟨e, hb, he⟩ | ⟨hb, he⟩ <;> rw [he, hb]
  · exact doRegister_gpioTrace hi s e.port e.pin e.mode
  · exact (List.append_nil _).symm

theorem registerEntry_padLevel (p n : Half) :
    (s.registerEntry b i).padLevel p n = ((b i).bind (entryLevel p n)).getD (s.padLevel p n) := by
  rcases State.registerEntry_cases b s i with ⟨e, hb, he⟩ | ⟨hb, he⟩ <;> rw [he, hb]
  · rw [doRegister_padLevel hi, Option.bind_some, entryLevel]
    split <;> rfl
  · rfl

end

section
variable (b : Nat → Option Config.BoardEntry) {is : List Nat} (his : ∀ i ∈ is, i < 4) (s : State)
include his

/-- A listed index holds its entry's slot, if it has an entry; every other slot is as it was. -/
theorem foldl_registerEntry_getElem? (j : Nat) : (is.foldl (State.registerEntry b) s).led[j]? =
    if j ∈ is then ((b j).map entrySlot).or s.led[j]? else s.led[j]? := by
  induction is generalizing s with
  | nil => rfl
  | cons i is ih =>
    obtain ⟨hi, his⟩ := List.forall_mem_cons.1 his
    rw [List.foldl_cons, ih his, registerEntry_getElem? b hi]
    by_cases hj : j = i
    · subst hj
      cases b j <;> simp
    · simp [hj]

/-- Each entry emits its one command, in the order of the list. -/
theorem foldl_registerEntry_gpioTrace : (is.foldl (State.registerEntry b) s).gpioTrace =
    s.gpioTrace ++ is.filterMap fun i => (b i).map entryCmd := by
  induction is generalizing s with
  | nil => exact (List.append_nil _).symm
  | cons i is ih =>
    obtain ⟨hi, his⟩ := List.forall_mem_cons.1 his
    rw [List.foldl_cons, ih his, registerEntry_gpioTrace b hi]
    cases hb : b i <;> simp [hb]

/-- The last entry of the list with a pad's identity decides the pad's level. -/
theorem foldl_registerEntry_padLevel (p n : Half) : (is.foldl (State.registerEntry b) s).padLevel p n =
    (is.reverse.findSome? fun i => (b i).bind (entryLevel p n)).getD (s.padLevel p n) := by
  induction is generalizing s with
  | nil => rfl
  | cons i is ih =>
    obtain ⟨hi, his⟩ := List.forall_mem_cons.1 his
    rw [List.foldl_cons, ih his, registerEntry_padLevel b hi, List.reverse_cons, List.findSome?_append,
      Option.getD_or, List.findSome?_singleton]

end

/-- INIT is the registration of the four indices in ascending order, then the interrupt's priority and enable. -/
theorem doInit_eq_foldl (s : State) (b : Nat → Option Config.BoardEntry) :
    s.doInit b = { [0, 1, 2, 3].foldl (State.registerEntry b) s with
      irqPrio := some Config.irqPriority, irqEn := true } := rfl

/-- Settles O17, by what registering a list of indices leaves in each field. -/
theorem anyBoardIsRegistered : Obligations.AnyBoardIsRegistered := by
  intro b s
  have hrange : ∀ i ∈ [0, 1, 2, 3], i < 4 := by decide
  have hframe := (SameTimerAndIrq.refl s).foldl_registerEntry b [0, 1, 2, 3]
  rw [doInit_eq_foldl]
  constructor
  case slot =>
    intro i hi
    have hmem : i ∈ [0, 1, 2, 3] := List.mem_range.2 hi
    have hslot := foldl_registerEntry_getElem? b hrange s i
    rw [if_pos hmem] at hslot
    rw [State.answer_led, hslot]
    cases b i <;> rfl
  case trace => exact foldl_registerEntry_gpioTrace b hrange s
  case pads => exact foldl_registerEntry_padLevel b hrange s
  case timer => exact { hframe.timer with }
  case irqEn => rfl
  case irqPrio => rfl
  case inputs => exact hframe.irqAndInputs.inputs
  case resp => rfl

/-- Settles O16: INIT is the operation of O17 on `BOARD`. -/
theorem initRegistersTheBoard : Obligations.InitRegistersTheBoard :=
  fun s => ⟨_, exec_init s, anyBoardIsRegistered Config.board s⟩

/-! ## GET (R70) -/

theorem queryState_of_slot {s : State} {i : Nat} {l : LedSlot} (hl : s.led[i]? = some l) :
    s.queryState i = l.state := by
  rw [State.queryState, State.slotAt_eq, hl]

theorem queryState_of_ge {s : State} {i : Nat} (hi : 4 ≤ i) : s.queryState i = .off := by
  rw [State.queryState, State.slotAt_eq, Vector.getElem?_eq_none hi]

/-- GET of an index that reads as `st` writes the code of `st` on `resp` and nothing else (R47, R62). -/
theorem exec_get_of_queryState {s : State} {x : Index} {st : LedState} (h : s.queryState x.toNat = st) :
    exec (.get x) s = .next { s with resp := stateResp st } := by
  rw [exec_get, h]
  rfl

theorem exec_get_of_slot {s : State} {x : Index} {l : LedSlot} (hl : s.led[x.toNat]? = some l) {st : LedState}
    (hst : l.state = st) : exec (.get x) s = .next { s with resp := stateResp st } :=
  exec_get_of_queryState ((queryState_of_slot hl).trans hst)

/-- Settles O18: a slot reads as its stored state, an index out of range as OFF. -/
theorem getAnswersTheStoredState : Obligations.GetAnswersTheStoredState := by
  refine fun s x => ⟨fun l hl hst => ?off, fun l hl hst => ?on, fun l hl hst => ?blink, fun hx => ?outOfRange⟩
  case off => exact exec_get_of_slot hl hst
  case on => exact exec_get_of_slot hl hst
  case blink => exact exec_get_of_slot hl hst
  case outOfRange => exact exec_get_of_queryState (queryState_of_ge hx)

end Sys2Proof.RegistryProofs
end

section
/-! The proofs about the timer (`41_timer.md`): the two procedures that write its control bits, its two events, and the
one thing a step other than the ISR and RESET can do to the slot counter and the clock gating, which is to start it. -/

namespace Sys2Proof.TimerProofs

open Sys2Proof.Machine Sys2Proof.Safety

/-! ## The procedures -/

theorem timEnable_timerStarted (s : State) : TimerStarted s.timEnable :=
  ⟨s.timEnable_currentSlot, s.timEnable_timRun, s.timEnable_timClkEn, s.timEnable_timLpclkEn, s.timEnable_timOvfIe,
    s.timEnable_timOvf, s.timEnable_timSrOther, s.timEnable_timCfg⟩

/-- Settles O27, field by field. -/
theorem timEnableNetEffect : Obligations.TimEnableNetEffect :=
  fun s => ⟨timEnable_timerStarted s, ⟨s.timEnable_irqEn, s.timEnable_irqPrio, s.timEnable_inputs⟩, s.timEnable_led,
    s.timEnable_gpioTrace, s.timEnable_pad, s.timEnable_resp⟩

/-- Settles O28: `tim_disable` is that one write. -/
theorem timDisableOnlyStopsTheCounter : Obligations.TimDisableOnlyStopsTheCounter := fun _ => rfl

/-! ## The events -/

/-- Settles O29, by the guard of OVERFLOW. -/
theorem overflowSetsTheFlag : Obligations.OverflowSetsTheFlag := by
  intro s
  constructor <;> intro hrun
  · rw [exec_overflow, if_pos hrun, State.raiseOverflow]
  · rw [exec_overflow, if_neg (Bool.eq_false_iff.1 hrun)]

/-- Settles O30, by the guard of OTHERFLAG. -/
theorem otherflagSetsTheOtherFlag : Obligations.OtherflagSetsTheOtherFlag := by
  intro s
  constructor <;> intro hclk
  · rw [exec_otherflag, if_pos hclk, State.raiseOther]
  · rw [exec_otherflag, if_neg (Bool.eq_false_iff.1 hclk)]

/-- Settles O31: the flag is sticky, and the first OVERFLOW leaves `tim_run` as the second one finds it. -/
theorem unservedOverflowsMerge : Obligations.UnservedOverflowsMerge := by
  intro s t u ht hu
  cases hrun : s.timRun with
  | true =>
    rw [(overflowSetsTheFlag s).1 hrun] at ht
    cases ht
    rw [(overflowSetsTheFlag { s with timOvf := true }).1 hrun] at hu
    cases hu
    rfl
  | false =>
    rw [(overflowSetsTheFlag s).2 hrun] at ht
    cases ht
    rw [(overflowSetsTheFlag s).2 hrun] at hu
    cases hu
    rfl

/-! ## Starting the timer, or not -/

/-- Both clock gating bits are the same (R23). -/
structure SameClock (s t : State) : Prop where
  timClkEn : t.timClkEn = s.timClkEn
  timLpclkEn : t.timLpclkEn = s.timLpclkEn

/-- From `s` to `t` the timer is not started: `tim_run` does not rise, and the slot counter and the clock gating, which
only `tim_enable` would write (R77, R78), are the same. -/
structure NotStarted (s t : State) : Prop extends SameClock s t where
  currentSlot : t.currentSlot = s.currentSlot
  timRun : t.timRun = true → s.timRun = true

/-- From `s` to `t` the stopped timer is started by `tim_enable`, or it is not started. -/
def StartsOrNot (s t : State) : Prop := (s.timRun = false ∧ TimerStarted t) ∨ NotStarted s t

theorem notStarted_of_sameTimer {s t : State} (h : SameTimer s t) : NotStarted s t :=
  ⟨⟨h.timClkEn, h.timLpclkEn⟩, h.currentSlot, fun ht => h.timRun.symm.trans ht⟩

theorem StartsOrNot.answer {s t : State} (h : StartsOrNot s t) (v : Resp) : StartsOrNot s (t.answer v) := by
  rcases h with ⟨hrun, hstart⟩ | hnot
  · exact .inl ⟨hrun, { hstart with }⟩
  · exact .inr { hnot with }

/-- Only the first row of the arbitration starts the timer (R92). -/
theorem arbitrate_startsOrNot (s : State) : StartsOrNot s s.arbitrate := by
  rcases s.arbitrate_cases with ⟨-, hrun, e⟩ | ⟨-, -, e⟩ | ⟨-, hrun, e⟩ | ⟨-, -, e⟩ <;> rw [e]
  · exact .inl ⟨hrun, timEnable_timerStarted s⟩
  · exact .inr ⟨⟨rfl, rfl⟩, rfl, id⟩
  · exact .inr ⟨⟨rfl, rfl⟩, rfl, fun _ => hrun⟩
  · exact .inr ⟨⟨rfl, rfl⟩, rfl, id⟩

/-- Storing the slot and driving the pin leave the timer to the arbitration (R91, R93). -/
theorem fullPath_startsOrNot (s : State) (i : Nat) (l : LedSlot) (q : Request) : StartsOrNot s (s.fullPath i l q) := by
  rcases arbitrate_startsOrNot (s.setSlot i (q.store l)) with ⟨hrun, hstart⟩ | hnot
  · exact .inl ⟨hrun, { hstart with }⟩
  · exact .inr { hnot with }

/-- What an instruction other than the ISR and RESET can do to the slot counter and the clock gating. -/
theorem exec_startsOrNot {i : Instr} {s t : State} (h : exec i s = .next t) (hisr : i ≠ .isr) (hr : i ≠ .reset) :
    StartsOrNot s t := by
  rcases exec_cases h hr with ⟨-, rfl⟩ | ⟨x, p, n, m, -, rfl⟩ | ⟨v, rfl⟩ | ⟨k, l, q, -, -, -, rfl⟩ | ⟨-, rfl⟩ |
    ⟨-, rfl⟩ | ⟨hi, -, -⟩ | ⟨-, rfl⟩
  · exact .inr (notStarted_of_sameTimer (RegistryProofs.anyBoardIsRegistered Config.board s).timer)
  · have hframe := (RegistryProofs.SameTimerAndIrq.refl s).doRegister x.toNat p n m
    exact .inr { notStarted_of_sameTimer hframe.timer with }
  · exact .inr ⟨⟨rfl, rfl⟩, rfl, id⟩
  · exact (fullPath_startsOrNot s k l q).answer Config.respOk
  · exact .inr ⟨⟨rfl, rfl⟩, rfl, id⟩
  · exact .inr ⟨⟨rfl, rfl⟩, rfl, id⟩
  · exact absurd hi hisr
  · exact .inr ⟨⟨rfl, rfl⟩, rfl, id⟩

/-- Settles O49: a start leaves the counter 0 and makes `tim_run` rise; without one it does neither. -/
theorem slotCounterRestartsWithTheTimer : Obligations.SlotCounterRestartsWithTheTimer := by
  intro i s t h hisr hr
  rcases exec_startsOrNot h hisr hr with ⟨hrun, hstart⟩ | hnot
  · exact ⟨fun _ _ => hstart.currentSlot, fun hno => absurd ⟨hrun, hstart.timRun⟩ hno⟩
  · refine ⟨fun hrun hrun' => ?_, fun _ => hnot.currentSlot⟩
    rw [hnot.timRun hrun'] at hrun
    cases hrun

/-! ## The clock gating -/

/-- The handler leaves the clock gating as it was (R110). -/
theorem serveInterrupt_sameClock (s : State) : SameClock s s.serveInterrupt := by
  refine serveInterrupt_keeps (P := SameClock s) (fun _ h => { h with }) (fun u i h => ?_) (fun _ h => { h with })
    ⟨rfl, rfl⟩
  exact ⟨(u.advanceLed_timClkEn i).trans h.timClkEn, (u.advanceLed_timLpclkEn i).trans h.timLpclkEn⟩

theorem exec_isr_sameClock {s t : State} (h : exec .isr s = .next t) : SameClock s t := by
  rw [exec_isr] at h
  cases h
  split
  · exact serveInterrupt_sameClock s
  · exact ⟨rfl, rfl⟩

/-- An instruction other than RESET sets both clock gating bits or leaves both. -/
theorem exec_clock_cases {i : Instr} {s t : State} (h : exec i s = .next t) (hr : i ≠ .reset) :
    (t.timClkEn = true ∧ t.timLpclkEn = true) ∨ SameClock s t := by
  by_cases hisr : i = .isr
  · subst hisr
    exact .inr (exec_isr_sameClock h)
  · rcases exec_startsOrNot h hisr hr with ⟨-, hstart⟩ | hnot
    · exact .inl ⟨hstart.timClkEn, hstart.timLpclkEn⟩
    · exact .inr hnot.toSameClock

/-- Settles O48: no instruction but RESET clears a clock gating bit, and `tim_enable` sets both. -/
theorem onlyResetStopsTheClock : Obligations.OnlyResetStopsTheClock := by
  refine ⟨fun s => ⟨s.timEnable_timClkEn, s.timEnable_timLpclkEn⟩, fun i s t h hr => ?_⟩
  rcases exec_clock_cases h hr with ⟨hclk, hlp⟩ | hsame
  · exact ⟨fun _ => hclk, fun _ => hlp⟩
  · exact ⟨hsame.timClkEn.trans, hsame.timLpclkEn.trans⟩

end Sys2Proof.TimerProofs
end

section
/-! The proofs about the state-setting commands (`42_state_setting.md`): the rows of the arbitration, what the full path
of the primitive leaves, the primitive's three outcomes, and each command as the primitive on its own request. -/

namespace Sys2Proof.SettingProofs

open Sys2Proof.Machine Sys2Proof.Safety

/-! ## Requests (R90, R91, R93) -/

theorem matchesSlot_iff_triple {q : Request} {l : LedSlot} :
    q.matchesSlot l = true ↔ (q.state, q.mask, q.repeats) = (l.state, l.slotsMask, l.repeats) := by
  rw [Request.matchesSlot_iff, Prod.mk.injEq, Prod.mk.injEq]

theorem store_eq_stored (q : Request) (l : LedSlot) : q.store l = stored l q.state q.mask q.repeats := by
  obtain ⟨st, m, r⟩ := q
  cases st <;> rfl

theorem shown_eq_effective (q : Request) (c : Slot) : q.shown c = effective q.state q.mask c := by
  obtain ⟨st, m, r⟩ := q
  cases st <;> rfl

/-! ## The four rows of the arbitration (R92) -/

section
variable {s : State}

theorem arbitrate_starts (hb : s.anyBlink = true) (hrun : s.timRun = false) : s.arbitrate = s.timEnable := by
  simp [State.arbitrate, hb, hrun]

theorem arbitrate_stops (hb : s.anyBlink = false) (hrun : s.timRun = true) : s.arbitrate = s.timDisable := by
  simp [State.arbitrate, hb, hrun]

theorem arbitrate_leaves (h : s.timRun = s.anyBlink) : s.arbitrate = s := by
  cases hb : s.anyBlink <;> simp [State.arbitrate, h, hb]

end

/-! ## The full path (R91 to R93) -/

section
variable (s : State) (i : Nat) (l : LedSlot) (q : Request)

/-- The scan runs after the store, and no later step of the full path writes a slot. -/
theorem fullPath_blinking_iff : Blinking (s.fullPath i l q) ↔ (s.setSlot i (q.store l)).anyBlink = true := by
  rw [State.anyBlink_iff, ← State.fullPath_led]
  rfl

theorem fullPath_timRun_iff : (s.fullPath i l q).timRun = true ↔ Blinking (s.fullPath i l q) := by
  rw [fullPath_blinking_iff, State.fullPath_eq, State.gpioSet_timRun, State.arbitrate_timRun]

/-- The pin shows the request at the slot counter as the arbitration left it. -/
theorem fullPath_eq_gpioSet : s.fullPath i l q = ((s.setSlot i (q.store l)).arbitrate).gpioSet l.port l.pin
    (levelFor (effective q.state q.mask (s.fullPath i l q).currentSlot) l.mode) := by
  rw [← shown_eq_effective]
  rfl

theorem fullPath_gpioTrace : (s.fullPath i l q).gpioTrace = s.gpioTrace ++
    [.set l.port l.pin (levelFor (effective q.state q.mask (s.fullPath i l q).currentSlot) l.mode)] := by
  conv_lhs => rw [fullPath_eq_gpioSet]
  rw [State.gpioSet_gpioTrace, State.arbitrate_gpioTrace, State.setSlot_gpioTrace]

theorem fullPath_padLevel (p n : Half) : (s.fullPath i l q).padLevel p n =
    if l.port = p ∧ l.pin = n then levelFor (effective q.state q.mask (s.fullPath i l q).currentSlot) l.mode
    else s.padLevel p n := by
  conv_lhs => rw [fullPath_eq_gpioSet]
  rw [State.padLevel_eq, State.gpioSet_pad, State.arbitrate_pad, State.setSlot_pad, Pads.level_apply_set,
    State.padLevel_eq]

/-- The timer's bits after the full path are those of the arbitration. -/
theorem fullPath_timer_of_arbitrate {u : State} (h : (s.setSlot i (q.store l)).arbitrate = u) :
    SameTimer u (s.fullPath i l q) := by
  subst h
  exact ⟨rfl, rfl, rfl, rfl, rfl, rfl, rfl, rfl⟩

theorem fullPath_irqAndInputs : SameIrqAndInputs s (s.fullPath i l q) := by
  constructor <;> simp [State.fullPath_eq]

end

theorem timerStarted_of_sameTimer {s t : State} (hs : TimerStarted s) (h : SameTimer s t) : TimerStarted t where
  currentSlot := h.currentSlot.trans hs.currentSlot
  timRun := h.timRun.trans hs.timRun
  timClkEn := h.timClkEn.trans hs.timClkEn
  timLpclkEn := h.timLpclkEn.trans hs.timLpclkEn
  timOvfIe := h.timOvfIe.trans hs.timOvfIe
  timOvf := h.timOvf.trans hs.timOvf
  timSrOther := h.timSrOther.trans hs.timSrOther
  timCfg := h.timCfg.trans hs.timCfg

/-- On a slot in range the full path, answered with `OK`, leaves what the rules say. -/
theorem fullPath_meets_rules {s : State} {i : Nat} {l : LedSlot} (hl : s.led[i]? = some l) (q : Request) :
    FullPath i l q.state q.mask q.repeats s ((s.fullPath i l q).answer Config.respOk) := by
  have hblink := fullPath_blinking_iff s i l q
  have hnot : ¬ Blinking (s.fullPath i l q) → (s.setSlot i (q.store l)).anyBlink = false :=
    fun hb => Bool.eq_false_iff.2 (mt hblink.2 hb)
  constructor
  case slot => rw [State.answer_led, State.fullPath_getElem? hl, if_pos rfl, store_eq_stored]
  case otherSlots =>
    intro j hj
    rw [State.answer_led, State.fullPath_getElem? hl, if_neg hj]
  case started =>
    intro hb hrun
    have htimer := fullPath_timer_of_arbitrate s i l q (arbitrate_starts (hblink.1 hb) hrun)
    exact { timerStarted_of_sameTimer (TimerProofs.timEnable_timerStarted _) htimer with }
  case kept =>
    intro hb hrun
    exact { fullPath_timer_of_arbitrate s i l q (arbitrate_leaves (hrun.trans (hblink.1 hb).symm)) with }
  case stopped =>
    intro hb hrun
    exact { fullPath_timer_of_arbitrate s i l q (arbitrate_stops (hnot hb) hrun) with }
  case idle =>
    intro hb hrun
    exact { fullPath_timer_of_arbitrate s i l q (arbitrate_leaves (hrun.trans (hnot hb).symm)) with }
  case runsIff => exact fullPath_timRun_iff s i l q
  case trace => exact fullPath_gpioTrace s i l q
  case pin => exact (fullPath_padLevel s i l q l.port l.pin).trans (if_pos ⟨rfl, rfl⟩)
  case otherPads =>
    intro p n hne
    exact (fullPath_padLevel s i l q p n).trans (if_neg fun ⟨hp, hn⟩ => hne (by rw [hp, hn]))
  case rest => exact { fullPath_irqAndInputs s i l q with }
  case resp => rfl

/-! ## The primitive (R88) -/

section
variable {s : State} {i : Nat}

/-- R89: an index that is not valid is `ERR_INDEX`, whatever is requested of it. -/
theorem setLedState_of_invalid (h : ∀ l, s.led[i]? = some l → l.registered = false) (q : Request) :
    s.setLedState i q = { s with resp := 0xFF } := by
  rw [State.setLedState, State.validSlot_eq_none.2 h]
  rfl

theorem setLedState_of_none (h : s.led[i]? = none) (q : Request) : s.setLedState i q = { s with resp := 0xFF } :=
  setLedState_of_invalid (fun l hl => by rw [h] at hl; cases hl) q

theorem setLedState_of_unregistered {l : LedSlot} (hl : s.led[i]? = some l) (hr : l.registered = false) (q : Request) :
    s.setLedState i q = { s with resp := 0xFF } :=
  setLedState_of_invalid (fun l' hl' => by rw [hl] at hl'; cases hl'; exact hr) q

variable {l : LedSlot} (hl : s.led[i]? = some l) (hr : l.registered = true) {q : Request}
include hl hr

/-- R90: the short-circuit. -/
theorem setLedState_of_equal (h : (q.state, q.mask, q.repeats) = (l.state, l.slotsMask, l.repeats)) :
    s.setLedState i q = { s with resp := 0x00 } := by
  rw [State.setLedState, State.validSlot_eq_some.2 ⟨hl, hr⟩]
  exact if_pos (matchesSlot_iff_triple.2 h)

/-- R91 to R93: any other request takes the full path. -/
theorem setLedState_of_differs (h : (q.state, q.mask, q.repeats) ≠ (l.state, l.slotsMask, l.repeats)) :
    FullPath i l q.state q.mask q.repeats s (s.setLedState i q) := by
  have hpath : s.setLedState i q = (s.fullPath i l q).answer Config.respOk := by
    rw [State.setLedState, State.validSlot_eq_some.2 ⟨hl, hr⟩]
    exact if_neg (mt matchesSlot_iff_triple.1 h)
  rw [hpath]
  exact fullPath_meets_rules hl q

end

theorem setLedState_primitive (s : State) (i : Nat) (q : Request) :
    Primitive i q.state q.mask q.repeats s (s.setLedState i q) where
  outOfRange h := setLedState_of_none h q
  unregistered _ hl hr := setLedState_of_unregistered hl hr q
  shortCircuit _ hl hr h := setLedState_of_equal hl hr h
  full _ hl hr h := setLedState_of_differs hl hr h

/-! ## The requests of SET, BLINK and TOGGLE (R95 to R97) -/

theorem setRequest_of_ne_blink {st : LedState} (h : st ≠ .blink) : setRequest st = ⟨st, 0, 0⟩ := by
  cases st with
  | off => rfl
  | on => rfl
  | blink => exact absurd rfl h

theorem blinkRepeat_zero : blinkRepeat 0 = 0xFFFF := if_pos rfl

theorem blinkRepeat_of_ne {c : Half} (h : c ≠ 0) : blinkRepeat c = c := if_neg h

theorem toggleRequest_of_ne_on {st : LedState} (h : st ≠ .on) : toggleRequest st = ⟨.on, 0, 0⟩ := by
  cases st with
  | off => rfl
  | on => exact absurd rfl h
  | blink => rfl

/-- TOGGLE requests a state other than the stored one, so it never short-circuits. -/
theorem toggleRequest_state_ne (st : LedState) : (toggleRequest st).state ≠ st := by
  cases st <;> decide

/-! ## The commands (R94 to R97) -/

/-- Settles O19: SETSTATE runs the primitive on its own operands. -/
theorem setstateIsThePrimitive : Obligations.SetstateIsThePrimitive :=
  fun s x st m r => ⟨_, exec_setstate x st m r s, setLedState_primitive s x.toNat ⟨st, m, r⟩⟩

/-- Settles O20: each command short-circuits on its own request, and the full path appends one command. -/
theorem equalRequestIsANoOp : Obligations.EqualRequestIsANoOp := by
  intro s x l hl hr
  refine ⟨?setstate, fun st hst heq => ?set, fun heq => ?setBlink, fun hb hne => ?blink,
    fun hb hforever => ?blinkZero, fun st m r t hne ht => ?differs⟩
  case setstate => rw [exec_setstate, setLedState_of_equal hl hr rfl]
  case set =>
    rw [exec_set, setRequest_of_ne_blink hst]
    exact congrArg _ (setLedState_of_equal hl hr heq)
  case setBlink => exact congrArg _ (setLedState_of_equal (q := setRequest .blink) hl hr heq)
  case blink =>
    rw [exec_blink, blinkRepeat_of_ne hne]
    exact congrArg _ (setLedState_of_equal hl hr (by rw [hb]))
  case blinkZero =>
    rw [exec_blink, blinkRepeat_zero]
    exact congrArg _ (setLedState_of_equal hl hr (by rw [hb, hforever]))
  case differs =>
    rw [exec_setstate] at ht
    cases ht
    exact ⟨_, (setLedState_of_differs (q := ⟨st, m, r⟩) hl hr hne).trace⟩

/-- Settles O21: SET runs the primitive on the request of each state. -/
theorem setUsesTheDefaults : Obligations.SetUsesTheDefaults := by
  have hset (s : State) (x : Index) (st : LedState) : ∃ t, exec (.set x st) s = .next t ∧
      Primitive x.toNat (setRequest st).state (setRequest st).mask (setRequest st).repeats s t :=
    ⟨_, exec_set x st s, setLedState_primitive s x.toNat (setRequest st)⟩
  exact fun s x => ⟨hset s x .blink, hset s x .on, hset s x .off⟩

/-- Settles O22, by BLINK's two readings of its count. -/
theorem blinkCountZeroIsForever : Obligations.BlinkCountZeroIsForever := by
  refine fun s x m => ⟨?zero, fun c hc => ?nonzero⟩
  case zero =>
    rw [exec_blink, blinkRepeat_zero]
    exact ⟨_, rfl, setLedState_primitive s x.toNat ⟨.blink, m, 0xFFFF⟩⟩
  case nonzero =>
    rw [exec_blink, blinkRepeat_of_ne hc]
    exact ⟨_, rfl, setLedState_primitive s x.toNat ⟨.blink, m, c⟩⟩

/-- TOGGLE of a registered LED takes the full path to what the stored state asks for. -/
theorem toggle_takes_fullPath {s : State} {x : Index} {l : LedSlot} (hl : s.led[x.toNat]? = some l)
    (hr : l.registered = true) {q : Request} (hq : toggleRequest l.state = q) :
    ∃ t, exec (.toggle x) s = .next t ∧ FullPath x.toNat l q.state q.mask q.repeats s t := by
  subst hq
  rw [exec_toggle, RegistryProofs.queryState_of_slot hl]
  exact ⟨_, rfl, setLedState_of_differs hl hr fun heq => toggleRequest_state_ne l.state (congrArg Prod.fst heq)⟩

/-- Settles O23: the stored state decides the request, and a bad index rejects whatever is requested. -/
theorem toggleFlipsAndLightsABlinker : Obligations.ToggleFlipsAndLightsABlinker := by
  refine fun s x => ⟨fun l hl hr hon => ?off, fun l hl hr hne => ?on, fun l hl hr => ?unregistered,
    fun hnone => ?outOfRange⟩
  case off => exact toggle_takes_fullPath (q := ⟨.off, 0, 0⟩) hl hr (by rw [hon]; rfl)
  case on => exact toggle_takes_fullPath hl hr (toggleRequest_of_ne_on hne)
  case unregistered => rw [exec_toggle, setLedState_of_unregistered hl hr]
  case outOfRange => rw [exec_toggle, setLedState_of_none hnone]

end Sys2Proof.SettingProofs
end

section
/-! The proofs about the slot advance (`43_slot_advance.md`): what the handler leaves as it was, what one LED's turn and
the whole loop make of the slots and the pads, any number of ticks, and the pad of a blinking LED. -/

namespace Sys2Proof.SlotAdvanceProofs

open Sys2Proof.Machine Sys2Proof.Safety

/-! ## What the handler leaves as it was (R110) -/

/-- The timer's control, the interrupt line, the response and the schedule are the same. -/
structure SameControl (s t : State) : Prop where
  timRun : t.timRun = s.timRun
  timClkEn : t.timClkEn = s.timClkEn
  timLpclkEn : t.timLpclkEn = s.timLpclkEn
  timOvfIe : t.timOvfIe = s.timOvfIe
  timCfg : t.timCfg = s.timCfg
  irqEn : t.irqEn = s.irqEn
  irqPrio : t.irqPrio = s.irqPrio
  resp : t.resp = s.resp
  inputs : t.inputs = s.inputs

theorem SameControl.refl (s : State) : SameControl s s := ⟨rfl, rfl, rfl, rfl, rfl, rfl, rfl, rfl, rfl⟩

theorem SameControl.advanceLed {s u : State} (h : SameControl s u) (i : Nat) : SameControl s (u.advanceLed i) := by
  obtain ⟨hrun, hclk, hlp, hie, hcfg, hen, hprio, hresp, hin⟩ := h
  constructor <;> simpa

/-- Registration writes a slot and a pad only (R68). -/
theorem doRegister_sameControl (s : State) (i : Nat) (p n : Half) (m : Bit) : SameControl s (s.doRegister i p n m) := by
  constructor <;> simp

theorem serveInterrupt_sameControl (s : State) : SameControl s s.serveInterrupt :=
  serveInterrupt_keeps (P := SameControl s) (fun _ h => { h with }) (fun _ i h => h.advanceLed i)
    (fun _ h => { h with }) (.refl s)

theorem exec_isr_sameControl {s t : State} (h : exec .isr s = .next t) : SameControl s t := by
  rw [exec_isr] at h
  cases h
  split
  · exact serveInterrupt_sameControl s
  · exact .refl s

/-- Settles O34: no line of the handler writes a control bit, a configuration or the interrupt line. -/
theorem isrNeverWritesTheTimerControl : Obligations.IsrNeverWritesTheTimerControl := by
  intro s t h
  obtain ⟨hrun, hclk, hlp, hie, hcfg, hen, hprio, -, -⟩ := exec_isr_sameControl h
  exact ⟨hrun, hclk, hlp, hie, hcfg, hen, hprio⟩

/-! ## A running timer is enabled (R76, R111) -/

theorem runningTimerEnabled_of_timerStarted {t : State} (h : TimerStarted t) : RunningTimerEnabled t :=
  fun _ => ⟨h.timOvfIe, h.timClkEn, h.timLpclkEn⟩

/-- Only `tim_enable` makes `tim_run` rise, and it leaves the three bits set (R92). -/
theorem arbitrate_runningTimerEnabled {s : State} (hs : RunningTimerEnabled s) : RunningTimerEnabled s.arbitrate := by
  rcases s.arbitrate_cases with ⟨-, -, e⟩ | ⟨-, -, e⟩ | ⟨-, -, e⟩ | ⟨-, -, e⟩ <;> rw [e]
  · exact runningTimerEnabled_of_timerStarted (TimerProofs.timEnable_timerStarted s)
  · exact hs
  · exact fun hrun => by cases hrun
  · exact hs

theorem SameControl.runningTimerEnabled {s t : State} (h : SameControl s t) (hs : RunningTimerEnabled s) :
    RunningTimerEnabled t := by
  unfold RunningTimerEnabled
  rwa [h.timRun, h.timOvfIe, h.timClkEn, h.timLpclkEn]

/-- Settles O42: the arbitration starts a timer by `tim_enable` only, and nothing but RESET, which stops it, clears one
of the three bits. -/
theorem stepKeepsRunningTimerEnabled : Obligations.StepKeepsRunningTimerEnabled := by
  intro s t hs h
  refine step_keeps (P := RunningTimerEnabled) ?_ (fun _ _ hs => hs) (fun _ hs => hs) h hs
  intro i s t
  refine exec_keeps ?hans ?hreg ?hirq ?hfull ?hovf ?hother ?hserve ?hreset
  case hans => exact fun _ _ hs => hs
  case hreg => exact fun s i p n m hs => (doRegister_sameControl s i p n m).runningTimerEnabled hs
  case hirq => exact fun _ hs => hs
  case hfull => exact fun s i l q _ _ _ hs => arbitrate_runningTimerEnabled (s := s.setSlot i (q.store l)) hs
  case hovf => exact fun _ hs _ => hs
  case hother => exact fun _ hs _ => hs
  case hserve => exact fun s hs _ => (serveInterrupt_sameControl s).runningTimerEnabled hs
  case hreset => exact fun _ _ hrun => by cases hrun

/-! ## What a slot becomes (R105, R107) -/

/-- The sentinel is the one repeat that reads as -1 (R9). -/
theorem toInt_eq_neg_one_iff (r : Half) : r.toInt = -1 ↔ r = 0xFFFF := BitVec.toInt_inj (y := 0xFFFF)

theorem participates_iff_takesPart (l : LedSlot) : l.participates = true ↔ TakesPart l := by
  rw [l.participates_iff, TakesPart, toInt_eq_neg_one_iff]

theorem advanced_of_expiring {l : LedSlot} (hp : TakesPart l) (h1 : l.repeats = 1) : advanced l = l.expired :=
  if_pos ⟨hp, h1⟩

theorem one_lt_toInt {r : Half} (hpos : 0 < r.toInt) (h1 : r ≠ 1) : 1 < r.toInt := by
  have hne : r.toInt ≠ 1 := fun h => h1 (BitVec.toInt_inj (y := 1).1 h)
  omega

theorem advanced_of_counting {l : LedSlot} (hp : TakesPart l) (hpos : 0 < l.repeats.toInt) (h1 : l.repeats ≠ 1) :
    advanced l = { l with repeats := l.repeats - 1 } := by
  rw [advanced, if_neg (fun h => h1 h.2), if_pos ⟨hp, one_lt_toInt hpos h1⟩]

/-- A repeat that is not positive is not counted: the sentinel's, and those of LEDs that are passed over. -/
theorem advanced_of_not_counting {l : LedSlot} (hpos : ¬ 0 < l.repeats.toInt) : advanced l = l := by
  rw [advanced, if_neg (fun h => hpos (by rw [h.2]; decide)), if_neg (fun h => hpos (by omega))]

theorem advanced_of_not_takesPart {l : LedSlot} (hp : ¬ TakesPart l) : advanced l = l := by
  rw [advanced, if_neg (fun h => hp h.1), if_neg (fun h => hp h.1)]

/-- An advance expires a slot, or it writes nothing but the repeat. -/
theorem advanced_cases (l : LedSlot) :
    (TakesPart l ∧ l.repeats = 1 ∧ advanced l = l.expired) ∨
    (¬ (TakesPart l ∧ l.repeats = 1) ∧ ∃ r, advanced l = { l with repeats := r }) := by
  by_cases hp : TakesPart l
  · by_cases h1 : l.repeats = 1
    · exact .inl ⟨hp, h1, advanced_of_expiring hp h1⟩
    · refine .inr ⟨fun h => h1 h.2, ?_⟩
      by_cases hpos : 0 < l.repeats.toInt
      · exact ⟨_, advanced_of_counting hp hpos h1⟩
      · exact ⟨_, advanced_of_not_counting hpos⟩
  · exact .inr ⟨fun h => hp h.1, _, advanced_of_not_takesPart hp⟩

/-! ## The commands of one LED (R106, R107) -/

/-- From `s` to `t` exactly the commands `cmds` are emitted, in order, and they are applied to the pads. -/
structure Emits (s : State) (cmds : List GpioCmd) (t : State) : Prop where
  trace : t.gpioTrace = s.gpioTrace ++ cmds
  pads : t.pad = cmds.foldl Pads.apply s.pad

theorem Emits.nil {s t : State} (htrace : t.gpioTrace = s.gpioTrace) (hpad : t.pad = s.pad) : Emits s [] t :=
  ⟨by simpa using htrace, hpad⟩

theorem Emits.append {s t u : State} {c₁ c₂ : List GpioCmd} (h₁ : Emits s c₁ t) (h₂ : Emits t c₂ u) :
    Emits s (c₁ ++ c₂) u :=
  ⟨by rw [h₂.trace, h₁.trace, List.append_assoc], by rw [h₂.pads, h₁.pads, List.foldl_append]⟩

/-- The toggle where the mask's bits of slots `c - 1` and `c` differ (R106). -/
def edgeCmds (c : Slot) (l : LedSlot) : List GpioCmd :=
  if l.slotsMask.getLsbD ((c.toNat + 15) % 16) ≠ l.slotsMask.getLsbD c.toNat then [.toggle l.port l.pin] else []

/-- The OFF level where the count expires (R107). -/
def expiryCmds (l : LedSlot) : List GpioCmd :=
  if l.repeats = 1 then [.set l.port l.pin (levelFor .off l.mode)] else []

theorem emitted_of_takesPart (c : Slot) {l : LedSlot} (hp : TakesPart l) :
    emitted c l = edgeCmds c l ++ expiryCmds l := if_pos hp

theorem emitted_of_not_takesPart (c : Slot) {l : LedSlot} (hp : ¬ TakesPart l) : emitted c l = [] := if_neg hp

theorem prevSlot_toNat (c : Slot) : (prevSlot c).toNat = (c.toNat + 15) % 16 := by
  rw [prevSlot, BitVec.toNat_sub, Nat.add_comm]
  rfl

theorem edgeToggle_emits (s : State) (l : LedSlot) : Emits s (edgeCmds s.currentSlot l) (s.edgeToggle l) := by
  rw [edgeCmds, ← prevSlot_toNat]
  rcases s.edgeToggle_cases l with ⟨hne, e⟩ | ⟨heq, e⟩ <;> rw [e]
  · rw [maskBit, maskBit] at hne
    rw [if_pos hne]
    exact ⟨rfl, rfl⟩
  · rw [maskBit, maskBit] at heq
    rw [if_neg (not_not.2 heq)]
    exact .nil rfl rfl

theorem edgeToggle_led (s : State) (l : LedSlot) : (s.edgeToggle l).led = s.led := by
  rcases s.edgeToggle_cases l with ⟨-, e⟩ | ⟨-, e⟩ <;> rw [e]
  rfl

theorem countDown_emits (s : State) (i : Nat) (l : LedSlot) : Emits s (expiryCmds l) (s.countDown i l) := by
  rw [expiryCmds]
  rcases s.countDown_cases i l with ⟨-, h1, e⟩ | ⟨-, h1, e⟩ | ⟨hpos, e⟩ <;> rw [e]
  · rw [if_pos h1]
    exact ⟨rfl, rfl⟩
  · rw [if_neg h1]
    exact .nil rfl rfl
  · rw [if_neg (fun h1 => hpos (by rw [h1]; decide))]
    exact .nil rfl rfl

/-! ## One LED's turn (R105) -/

/-- A write of a slot in range is read back, and every other slot is as it was. -/
theorem setSlot_getElem?_of_slot {s : State} {i : Nat} {l : LedSlot} (hl : s.led[i]? = some l) (l' : LedSlot)
    (j : Nat) : (s.setSlot i l').led[j]? = if j = i then some l' else s.led[j]? := by
  rw [State.setSlot_getElem?]
  by_cases hj : j = i
  · rw [if_pos ⟨hj.symm, hj ▸ lt_of_slot hl⟩, if_pos hj]
  · rw [if_neg (fun h => hj h.1.symm), if_neg hj]

theorem countDown_getElem? {s : State} {i : Nat} {l : LedSlot} (hl : s.led[i]? = some l) (hp : TakesPart l) (j : Nat) :
    (s.countDown i l).led[j]? = if j = i then some (advanced l) else s.led[j]? := by
  rcases s.countDown_cases i l with ⟨-, h1, e⟩ | ⟨hpos, h1, e⟩ | ⟨hpos, e⟩ <;> rw [e]
  · rw [State.gpioSet_led, setSlot_getElem?_of_slot hl, advanced_of_expiring hp h1]
  · rw [setSlot_getElem?_of_slot hl, advanced_of_counting hp hpos h1]
  · rw [advanced_of_not_counting hpos, ← hl]
    split
    · subst j
      rfl
    · rfl

/-- The LED's own slot is advanced, every other slot is as it was. -/
theorem advanceLed_getElem? (s : State) (i j : Nat) :
    (s.advanceLed i).led[j]? = if j = i then (s.led[j]?).map advanced else s.led[j]? := by
  rcases s.advanceLed_cases i with ⟨hnone, e⟩ | ⟨l, hl, hp, e⟩ <;> rw [e]
  · split
    · subst j
      cases hl : s.led[i]? with
      | none => rfl
      | some l =>
        have hp : ¬ TakesPart l := by rw [← participates_iff_takesPart, hnone l hl]; decide
        rw [Option.map_some, advanced_of_not_takesPart hp]
    · rfl
  · rw [countDown_getElem? (by rwa [edgeToggle_led]) ((participates_iff_takesPart l).1 hp), edgeToggle_led]
    split
    · subst j
      rw [hl]
      rfl
    · rfl

/-- The LED's own commands, if the index has a LED. -/
theorem advanceLed_emits (s : State) (i : Nat) :
    Emits s ((s.led[i]?).toList.flatMap (emitted s.currentSlot)) (s.advanceLed i) := by
  rcases s.advanceLed_cases i with ⟨hnone, e⟩ | ⟨l, hl, hp, e⟩ <;> rw [e]
  · cases hl : s.led[i]? with
    | none => exact .nil rfl rfl
    | some l =>
      have hp : ¬ TakesPart l := by rw [← participates_iff_takesPart, hnone l hl]; decide
      rw [Option.toList_some, List.flatMap_singleton, emitted_of_not_takesPart _ hp]
      exact .nil rfl rfl
  · rw [hl, Option.toList_some, List.flatMap_singleton,
      emitted_of_takesPart _ ((participates_iff_takesPart l).1 hp)]
    exact (edgeToggle_emits s l).append (countDown_emits _ i l)

/-! ## The loop over the LEDs (R102) -/

/-- From `s` to `t` the LEDs below `k` have had their turn, in ascending order. -/
structure AdvancedBelow (k : Nat) (s t : State) : Prop where
  currentSlot : t.currentSlot = s.currentSlot
  slots : ∀ j : Nat, t.led[j]? = if j < k then (s.led[j]?).map advanced else s.led[j]?
  emits : Emits s ((s.led.toList.take k).flatMap (emitted s.currentSlot)) t

/-- One more turn: its own slot is still that of the start. -/
theorem AdvancedBelow.advanceLed {k : Nat} {s t : State} (h : AdvancedBelow k s t) :
    AdvancedBelow (k + 1) s (t.advanceLed k) where
  currentSlot := by rw [State.advanceLed_currentSlot, h.currentSlot]
  slots j := by
    rw [advanceLed_getElem?, h.slots]
    rcases Nat.lt_trichotomy j k with hj | rfl | hj
    · rw [if_neg (by omega), if_pos hj, if_pos (by omega)]
    · rw [if_pos rfl, if_neg (by omega), if_pos (by omega)]
    · rw [if_neg (by omega), if_neg (by omega), if_neg (by omega)]
  emits := by
    have hturn := advanceLed_emits t k
    rw [h.slots, if_neg (Nat.lt_irrefl k), h.currentSlot, ← Vector.getElem?_toList] at hturn
    rw [List.take_add_one, List.flatMap_append]
    exact h.emits.append hturn

theorem foldl_advanceLed (s : State) (k : Nat) :
    AdvancedBelow k s ((List.range k).foldl State.advanceLed s) := by
  induction k with
  | zero => exact ⟨rfl, fun j => by rw [if_neg (Nat.not_lt_zero j)]; rfl, .nil rfl rfl⟩
  | succ k ih =>
    rw [List.range_succ, List.foldl_append]
    exact ih.advanceLed

/-! ## The whole handler (R102 to R109) -/

theorem slotAdvance_slots (s : State) (i : Nat) : s.slotAdvance.led[i]? = (s.led[i]?).map advanced := by
  have hslots := (foldl_advanceLed s.bumpSlot 4).slots i
  rw [State.slotAdvance, hslots, State.bumpSlot_led]
  split
  · rfl
  · rw [Vector.getElem?_eq_none (Nat.le_of_not_lt ‹_›)]
    rfl

/-- The counter moves first, so the commands are those of the new time slot (R104). -/
theorem slotAdvance_emits (s : State) :
    Emits s (s.led.toList.flatMap (emitted (s.currentSlot + 1))) s.slotAdvance := by
  have hall : s.led.toList.take 4 = s.led.toList := List.take_of_length_le (by simp)
  obtain ⟨htrace, hpads⟩ := (foldl_advanceLed s.bumpSlot 4).emits
  rw [State.bumpSlot_led, hall] at htrace hpads
  exact ⟨htrace, hpads⟩

theorem slotAdvance_currentSlot (s : State) : s.slotAdvance.currentSlot = s.currentSlot + 1 :=
  (foldl_advanceLed s.bumpSlot 4).currentSlot

/-- A run that finds the overflow flag set. -/
theorem serveInterrupt_of_overflow {s : State} (hovf : s.timOvf = true) :
    s.serveInterrupt = s.slotAdvance.clearFlags := by
  rcases s.serveInterrupt_cases with ⟨-, e⟩ | ⟨hclear, -⟩
  · exact e
  · rw [hovf] at hclear
    cases hclear

/-- A spurious run (R103). -/
theorem serveInterrupt_of_no_overflow {s : State} (hovf : s.timOvf = false) : s.serveInterrupt = s.clearFlags := by
  rcases s.serveInterrupt_cases with ⟨hset, -⟩ | ⟨-, e⟩
  · rw [hovf] at hset
    cases hset
  · exact e

theorem serveInterrupt_advanced {s : State} (hovf : s.timOvf = true) : Advanced s s.serveInterrupt := by
  have hframe := serveInterrupt_sameControl s
  obtain ⟨htrace, hpads⟩ := slotAdvance_emits s
  have hslot : s.slotAdvance.clearFlags.currentSlot = s.currentSlot + 1 := slotAdvance_currentSlot s
  rw [serveInterrupt_of_overflow hovf] at hframe ⊢
  exact { hframe with
    currentSlot := by rw [hslot, BitVec.toNat_add]; rfl
    slots := fun i => by rw [State.clearFlags_led, slotAdvance_slots]
    trace := by rw [hslot, State.clearFlags_gpioTrace, htrace]
    pads := by rw [hslot, State.clearFlags_pad, hpads]
    timOvf := State.clearFlags_timOvf _
    timSrOther := State.clearFlags_timSrOther _ }

/-- Settles O32, by the two branches of the flag check. -/
theorem isrAdvancesEveryLed : Obligations.IsrAdvancesEveryLed := by
  refine fun s hen => ⟨fun hovf hreq => ?advance, fun hovf hother => ?spurious⟩
  case advance =>
    have hguard : s.isrGuard = true := s.isrGuard_iff.2 ⟨hen, hreq.imp_left fun hie => ⟨hovf, hie⟩⟩
    rw [exec_isr, if_pos hguard]
    exact ⟨_, rfl, serveInterrupt_advanced hovf⟩
  case spurious =>
    have hguard : s.isrGuard = true := s.isrGuard_iff.2 ⟨hen, .inr hother⟩
    rw [exec_isr, if_pos hguard, serveInterrupt_of_no_overflow hovf]
    rfl

/-! ## The tick (R111) -/

/-- The step at an instant that causes an instruction, with the instant consumed. -/
theorem step_of_cause {s : State} {c : Instant} {rest : List Instant} (hs : s.inputs = c :: rest) {i : Instr}
    (h : c.cause = .ok i) : step s = exec i { s with inputs := rest } := by
  have hfetch : s.fetch = .ok i := by rw [State.fetch, State.nextInstant, hs, List.headD_cons, h]
  rw [step, hfetch, EncodingProofs.consume_of_inputs hs]

theorem ticks_succ (n : Nat) : ticks (n + 1) = ⟨false, .ovf⟩ :: ⟨false, .quiet⟩ :: ticks n := rfl

/-- OVERFLOW then ISR, as two steps of any longer run. -/
theorem run_tick {s : State} {rest : List Instant} (hs : Ticking s)
    (hin : s.inputs = ⟨false, .ovf⟩ :: ⟨false, .quiet⟩ :: rest) :
    ∃ t, (∀ k, core.run (k + 2) s = core.run k t) ∧ Advanced { s with inputs := rest } t := by
  obtain ⟨hrun, hen, hie⟩ := hs
  have hovf : step s = .next { s with timOvf := true, inputs := ⟨false, .quiet⟩ :: rest } := by
    rw [step_of_cause hin rfl]
    exact (TimerProofs.overflowSetsTheFlag _).1 hrun
  have hisr := step_of_cause (s := { s with timOvf := true, inputs := ⟨false, .quiet⟩ :: rest }) rfl rfl
  obtain ⟨t, ht, hadv⟩ := (isrAdvancesEveryLed { s with timOvf := true, inputs := rest } hen).1 rfl (.inl hie)
  refine ⟨t, fun k => ?_, { hadv with }⟩
  rw [core_run_step hovf, core_run_step (hisr.trans ht)]

/-- Settles O35: the run of the one tick of the schedule. -/
theorem tickIsOneSlotAdvance : Obligations.TickIsOneSlotAdvance := by
  intro s rest hs hin
  obtain ⟨t, hrun, hadv⟩ := run_tick hs hin
  exact ⟨t, hrun 0, hadv⟩

theorem ticking_of_advanced {s t : State} (h : Advanced s t) (hs : Ticking s) : Ticking t := by
  unfold Ticking
  rwa [h.timRun, h.irqEn, h.timOvfIe]

/-- After `n` ticks a further tick is possible, and every slot has been advanced `n` times. -/
theorem run_ticks (n : Nat) {s : State} {rest : List Instant} (hs : Ticking s) (hin : s.inputs = ticks n ++ rest) :
    ∃ t, core.run (2 * n) s = .next t ∧ Ticking t ∧ t.inputs = rest ∧
      ∀ i : Nat, t.led[i]? = (s.led[i]?).map advanced^[n] := by
  induction n generalizing s with
  | zero => exact ⟨s, rfl, hs, hin, fun i => Option.map_id'.symm⟩
  | succ n ih =>
    rw [ticks_succ] at hin
    obtain ⟨t, hrun, hadv⟩ := run_tick hs hin
    obtain ⟨u, hrun', hu, hrest, hslots⟩ := ih (ticking_of_advanced hadv hs) hadv.inputs
    refine ⟨u, (hrun (2 * n)).trans hrun', hu, hrest, fun i => ?_⟩
    rw [hslots, hadv.slots, Option.map_map, Function.iterate_succ]

/-- A slot that the run starts with. -/
theorem run_ticks_slot (n : Nat) {s : State} {rest : List Instant} (hs : Ticking s) (hin : s.inputs = ticks n ++ rest)
    {i : Nat} {l : LedSlot} (hl : s.led[i]? = some l) :
    ∃ t, core.run (2 * n) s = .next t ∧ Ticking t ∧ t.inputs = rest ∧ t.led[i]? = some (advanced^[n] l) := by
  obtain ⟨t, hrun, ht, hrest, hslots⟩ := run_ticks n hs hin
  exact ⟨t, hrun, ht, hrest, by rw [hslots, hl, Option.map_some]⟩

/-! ## The forever sentinel (R107) -/

/-- Settles O37: the sentinel is negative, so every advance leaves its slot. -/
theorem foreverNeverExpires : Obligations.ForeverNeverExpires := by
  intro n s rest i l hs hl hforever hin
  have hfixed : advanced l = l := advanced_of_not_counting (by rw [hforever]; decide)
  obtain ⟨t, hrun, -, hrest, hslot⟩ := run_ticks_slot n hs hin hl
  rw [Function.iterate_fixed hfixed] at hslot
  exact ⟨t, hrun, hslot, hrest⟩

/-! ## A positive count (R108) -/

/-- A count up to 32767 reads as itself (R9). -/
theorem toInt_ofNat_count {n : Nat} (hn : n ≤ 32767) : (BitVec.ofNat 16 n).toInt = n := by
  have hnat : (BitVec.ofNat 16 n).toNat = n := by rw [BitVec.toNat_ofNat]; omega
  rw [BitVec.toInt_eq_toNat_of_lt (by omega), hnat]

theorem ofNat_ne_one {n : Nat} (h2 : 2 ≤ n) (hn : n ≤ 32767) : BitVec.ofNat 16 n ≠ 1 := by
  intro h
  have hint := toInt_ofNat_count hn
  rw [h] at hint
  have hone : (1 : Half).toInt = 1 := rfl
  omega

section
variable {l : LedSlot} (hreg : l.registered = true) (hblink : l.state = .blink) (hmask : l.slotsMask ≠ 0)
include hreg hblink hmask

theorem takesPart_withCount {n : Nat} (h1 : 1 ≤ n) (hn : n ≤ 32767) :
    TakesPart { l with repeats := BitVec.ofNat 16 n } := by
  refine ⟨hreg, hblink, hmask, .inl ?_⟩
  rw [toInt_ofNat_count hn]
  omega

/-- A count above 1 loses one. -/
theorem advanced_withCount {n : Nat} (h2 : 2 ≤ n) (hn : n ≤ 32767) :
    advanced { l with repeats := BitVec.ofNat 16 n } = { l with repeats := BitVec.ofNat 16 (n - 1) } := by
  have hp := takesPart_withCount hreg hblink hmask (n := n) (by omega) hn
  have hpos : 0 < (BitVec.ofNat 16 n).toInt := by rw [toInt_ofNat_count hn]; omega
  rw [advanced_of_counting hp hpos (ofNat_ne_one h2 hn),
    ← BitVec.ofNat_sub_ofNat_of_le n 1 (by decide) (by omega)]
  rfl

variable {n : Nat} (hn : n ≤ 32767) (hcount : l.repeats = BitVec.ofNat 16 n)
include hn hcount

/-- Before its last advance a LED has lost one count an advance. -/
theorem advanced_iterate_of_lt {k : Nat} (hk : k < n) :
    advanced^[k] l = { l with repeats := BitVec.ofNat 16 (n - k) } := by
  induction k with
  | zero => rw [Nat.sub_zero, ← hcount]; rfl
  | succ k ih =>
    rw [Function.iterate_succ_apply', ih (by omega),
      advanced_withCount hreg hblink hmask (n := n - k) (by omega) (by omega)]
    rfl

/-- The last advance expires the LED. -/
theorem advanced_iterate_last (h1 : 1 ≤ n) : advanced^[n] l = l.expired := by
  obtain ⟨m, rfl⟩ := Nat.exists_eq_add_of_le' h1
  rw [Function.iterate_succ_apply', advanced_iterate_of_lt hreg hblink hmask hn hcount (Nat.lt_succ_self m),
    Nat.add_sub_cancel_left]
  exact advanced_of_expiring (takesPart_withCount hreg hblink hmask (n := 1) (by decide) (by decide)) rfl

end

/-- A schedule of `n` ticks begins with any smaller number of them. -/
theorem ticks_split {k n : Nat} (hk : k ≤ n) : ticks n = ticks k ++ ticks (n - k) := by
  obtain ⟨m, rfl⟩ := Nat.exists_eq_add_of_le hk
  rw [Nat.add_sub_cancel_left, ticks, List.replicate_add, List.flatten_append]
  rfl

/-- Settles O36: after `k` ticks the slot has been advanced `k` times. -/
theorem countExpiresOnItsLastTick : Obligations.CountExpiresOnItsLastTick := by
  refine fun n s rest i l h1 hn hs hl hreg hblink hmask hcount hin => ⟨fun k hk => ?before, ?last⟩
  case before =>
    rw [ticks_split hk.le, List.append_assoc] at hin
    obtain ⟨t, hrun, -, -, hslot⟩ := run_ticks_slot k hs hin hl
    rw [advanced_iterate_of_lt hreg hblink hmask hn hcount hk] at hslot
    exact ⟨t, hrun, hslot⟩
  case last =>
    obtain ⟨t, hrun, ⟨hrunning, -, -⟩, -, hslot⟩ := run_ticks_slot n hs hin hl
    rw [advanced_iterate_last hreg hblink hmask hn hcount h1] at hslot
    exact ⟨t, hrun, hslot, hrunning⟩

/-! ## The handler keeps a pad in step (R114) -/

/-- The pad a command drives (R53). -/
def cmdPad : GpioCmd → Half × Half
  | .set p n _ => (p, n)
  | .toggle p n => (p, n)

theorem level_apply_of_other {c : GpioCmd} {p n : Half} (h : cmdPad c ≠ (p, n)) (ps : Pads) :
    Pads.level (Pads.apply ps c) p n = Pads.level ps p n := by
  cases c with
  | set p' n' v => rw [Pads.level_apply_set, if_neg (fun ⟨hp, hn⟩ => h (by rw [cmdPad, hp, hn]))]
  | toggle p' n' => rw [Pads.level_apply_toggle, if_neg (fun ⟨hp, hn⟩ => h (by rw [cmdPad, hp, hn]))]

theorem level_foldl_of_others {cmds : List GpioCmd} {p n : Half} (h : ∀ c ∈ cmds, cmdPad c ≠ (p, n)) (ps : Pads) :
    Pads.level (cmds.foldl Pads.apply ps) p n = Pads.level ps p n := by
  induction cmds generalizing ps with
  | nil => rfl
  | cons c cmds ih =>
    obtain ⟨hc, hcmds⟩ := List.forall_mem_cons.1 h
    rw [List.foldl_cons, ih hcmds, level_apply_of_other hc]

/-- A LED's commands drive its own pad, and an unregistered slot has none. -/
theorem cmdPad_of_mem_emitted {c : Slot} {l : LedSlot} {cmd : GpioCmd} (h : cmd ∈ emitted c l) :
    l.registered = true ∧ cmdPad cmd = (l.port, l.pin) := by
  by_cases hp : TakesPart l
  · have hreg : l.registered = true := hp.1
    rw [emitted_of_takesPart c hp, List.mem_append, edgeCmds, expiryCmds, List.mem_ite_nil_right,
      List.mem_ite_nil_right, List.mem_singleton, List.mem_singleton] at h
    rcases h with ⟨-, rfl⟩ | ⟨-, rfl⟩
    · exact ⟨hreg, rfl⟩
    · exact ⟨hreg, rfl⟩
  · rw [emitted_of_not_takesPart c hp] at h
    cases h

/-- The LEDs before and after one index are those of the other indices. -/
theorem led_eq_append {s : State} {i : Nat} {l : LedSlot} (hl : s.led[i]? = some l) :
    ∃ before after, s.led.toList = before ++ l :: after ∧
      ∀ l' ∈ before ++ after, ∃ j, j ≠ i ∧ s.led[j]? = some l' := by
  rw [← Vector.getElem?_toList] at hl
  obtain ⟨hi, rfl⟩ := List.getElem?_eq_some_iff.1 hl
  refine ⟨s.led.toList.take i, s.led.toList.drop (i + 1), ?_, fun l' hl' => ?_⟩
  · rw [← List.drop_eq_getElem_cons hi, List.take_append_drop]
  · rcases List.mem_append.1 hl' with hbefore | hafter
    · obtain ⟨j, hj⟩ := List.mem_iff_getElem?.1 hbefore
      rw [List.getElem?_take, Vector.getElem?_toList, Option.ite_none_right_eq_some] at hj
      exact ⟨j, hj.1.ne, hj.2⟩
    · obtain ⟨j, hj⟩ := List.mem_iff_getElem?.1 hafter
      rw [List.getElem?_drop, Vector.getElem?_toList] at hj
      exact ⟨i + 1 + j, by omega, hj⟩

/-- A LED's commands, when its count does not expire: its pad is inverted on an edge of the mask (R106). -/
theorem level_emitted {c : Slot} {l : LedSlot} (hp : TakesPart l) (h1 : l.repeats ≠ 1) (ps : Pads) :
    Pads.level ((emitted c l).foldl Pads.apply ps) l.port l.pin =
      if l.slotsMask.getLsbD ((c.toNat + 15) % 16) ≠ l.slotsMask.getLsbD c.toNat then ~~~ Pads.level ps l.port l.pin
      else Pads.level ps l.port l.pin := by
  rw [emitted_of_takesPart c hp, expiryCmds, if_neg h1, List.append_nil, edgeCmds]
  split
  · rw [List.foldl_cons, List.foldl_nil, Pads.level_apply_toggle, if_pos ⟨rfl, rfl⟩]
  · rfl

/-- Of all the commands of a slot advance, only a LED's own reach a pad no other registered LED has. -/
theorem level_flatMap_emitted {i : Nat} {s : State} {l : LedSlot} (hown : OwnPad i s) (hl : s.led[i]? = some l)
    (hp : TakesPart l) (h1 : l.repeats ≠ 1) (c : Slot) :
    Pads.level ((s.led.toList.flatMap (emitted c)).foldl Pads.apply s.pad) l.port l.pin =
      if l.slotsMask.getLsbD ((c.toNat + 15) % 16) ≠ l.slotsMask.getLsbD c.toNat then ~~~ s.padLevel l.port l.pin
      else s.padLevel l.port l.pin := by
  obtain ⟨before, after, hsplit, hothers⟩ := led_eq_append hl
  have hother {ls : List LedSlot} (hls : ls ⊆ before ++ after) :
      ∀ cmd ∈ ls.flatMap (emitted c), cmdPad cmd ≠ (l.port, l.pin) := by
    intro cmd hcmd
    obtain ⟨l', hl', hcmd⟩ := List.mem_flatMap.1 hcmd
    obtain ⟨hreg, hpad⟩ := cmdPad_of_mem_emitted hcmd
    obtain ⟨j, hj, hslot⟩ := hothers l' (hls hl')
    rw [hpad]
    exact hown j l l' hl hslot hreg hj
  rw [hsplit, List.flatMap_append, List.flatMap_cons, List.foldl_append, List.foldl_append,
    level_foldl_of_others (hother (List.subset_append_right _ _)), level_emitted hp h1,
    level_foldl_of_others (hother (List.subset_append_left _ _)), State.padLevel_eq]

/-- Inverting a pad that shows one bit of the mask makes it show the other one. -/
theorem levelFor_edge : ∀ (old new : Bool) (m : Bit),
    (if old ≠ new then ~~~ levelFor (if old then .on else .off) m else levelFor (if old then .on else .off) m) =
      levelFor (if new then .on else .off) m := by decide

theorem takesPart_of_advanced {l : LedSlot} (h : TakesPart (advanced l)) : TakesPart l := by
  by_contra hp
  rw [advanced_of_not_takesPart hp] at h
  exact hp h

/-- One slot advance: a LED that still takes part was in step before, and its own edge is the one change of its pad. -/
theorem advanced_padInStep {i : Nat} {s t : State} (h : Advanced s t) (hown : OwnPad i s) (hs : PadInStep i s) :
    PadInStep i t := by
  intro l' hl' hp'
  rw [h.slots] at hl'
  obtain ⟨l, hl, rfl⟩ := Option.map_eq_some_iff.1 hl'
  have hp := takesPart_of_advanced hp'
  rcases advanced_cases l with ⟨-, -, e⟩ | ⟨hnot, r, e⟩
  · obtain ⟨-, hblink, -⟩ := hp'
    rw [e] at hblink
    cases hblink
  · have hprev : (t.currentSlot.toNat + 15) % 16 = s.currentSlot.toNat := by
      have hlt := s.currentSlot.isLt
      rw [h.currentSlot]
      omega
    rw [e, State.padLevel_eq, h.pads, level_flatMap_emitted hown hl hp (fun h1 => hnot ⟨hp, h1⟩), hprev, hs l hl hp]
    exact levelFor_edge _ _ l.mode

theorem serveInterrupt_padInStep {i : Nat} {s : State} (hown : OwnPad i s) (hs : PadInStep i s) :
    PadInStep i s.serveInterrupt := by
  cases hovf : s.timOvf with
  | true => exact advanced_padInStep (serveInterrupt_advanced hovf) hown hs
  | false =>
    rw [serveInterrupt_of_no_overflow hovf]
    exact hs

/-! ## The commands keep a pad in step (R93, R114) -/

/-- A LED that takes part after a step is in step if the step left its slot, the slot counter and its pad. -/
theorem padInStep_of_untouched {i : Nat} {s t : State} (hs : PadInStep i s)
    (h : ∀ l, t.led[i]? = some l → TakesPart l → s.led[i]? = some l ∧ t.currentSlot = s.currentSlot ∧
      t.padLevel l.port l.pin = s.padLevel l.port l.pin) : PadInStep i t := by
  intro l hl hp
  obtain ⟨hl, hslot, hpad⟩ := h l hl hp
  rw [hslot, hpad]
  exact hs l hl hp

/-- The full path puts its own LED in step; another LED's pad, slot and time slot it leaves, since the timer runs
already. -/
theorem fullPath_padInStep {i k : Nat} {s t : State} {l : LedSlot} {st : LedState} {m r : Half}
    (h : FullPath k l st m r s t) (hl : s.led[k]? = some l) (hreg : l.registered = true) (htimer : BlinkNeedsTimer s)
    (hown : OwnPad i s) (hs : PadInStep i s) : PadInStep i t := by
  by_cases hik : i = k
  · subst hik
    intro l' hl' hp
    rw [h.slot] at hl'
    cases hl'
    obtain ⟨-, hblink, -⟩ := hp
    have hst : st = .blink := hblink
    subst hst
    exact h.pin
  · refine padInStep_of_untouched hs fun l' hl' hp => ?_
    have hl0 := hl'
    rw [h.otherSlots i hik] at hl0
    obtain ⟨hreg', hblink, -⟩ := hp
    have hrun := htimer ⟨i, l', hl0, hreg', hblink⟩
    have hsame := h.kept ⟨i, l', hl', hreg', hblink⟩ hrun
    exact ⟨hl0, hsame.currentSlot, h.otherPads _ _ (hown k l' l hl0 hl hreg (Ne.symm hik)).symm⟩

/-- REGISTER leaves a LED that takes part, and the pad it writes is another one. -/
theorem doRegister_padInStep {i k : Nat} {s : State} {p n : Half} {m : Bit} (hown : OwnPad i (s.doRegister k p n m))
    (hs : PadInStep i s) : PadInStep i (s.doRegister k p n m) := by
  rcases Nat.lt_or_ge k 4 with hk | hk
  case inr => rwa [RegistryProofs.doRegister_of_ge hk]
  refine padInStep_of_untouched hs fun l hl hp => ?_
  have hl0 := hl
  rw [RegistryProofs.doRegister_getElem? hk] at hl0
  by_cases hik : i = k
  · rw [if_pos hik] at hl0
    cases hl0
    obtain ⟨-, hblink, -⟩ := hp
    cases hblink
  · rw [if_neg hik] at hl0
    have hne := hown k l _ hl (by rw [RegistryProofs.doRegister_getElem? hk, if_pos rfl]) rfl (Ne.symm hik)
    refine ⟨hl0, State.doRegister_currentSlot s k p n m, ?_⟩
    rw [RegistryProofs.doRegister_padLevel hk, if_neg (fun ⟨hp, hn⟩ => hne (by rw [hp, hn]))]

/-- INIT leaves a pad that no entry of the board profile has (R69). -/
theorem boardRegistered_padLevel_of_others {b : Nat → Option Config.BoardEntry} {s t : State}
    (h : BoardRegistered b s t) {p n : Half}
    (hothers : ∀ j, j < 4 → ∀ e, b j = some e → (e.port, e.pin) ≠ (p, n)) : t.padLevel p n = s.padLevel p n := by
  have hrange : ∀ j ∈ [3, 2, 1, 0], j < 4 := by decide
  rw [h.pads, List.findSome?_eq_none_iff.2, Option.getD_none]
  intro j hj
  cases hb : b j with
  | none => rfl
  | some e => exact if_neg fun ⟨hp, hn⟩ => hothers j (hrange j hj) e hb (by rw [hp, hn])

/-- INIT, on whatever board profile, leaves a LED that takes part, and the pads it writes are other ones. -/
theorem boardRegistered_padInStep {b : Nat → Option Config.BoardEntry} {i : Nat} {s t : State}
    (h : BoardRegistered b s t) (hown : OwnPad i t) (hs : PadInStep i s) : PadInStep i t := by
  refine padInStep_of_untouched hs fun l hl hp => ?_
  have hslot := h.slot i (lt_of_slot hl)
  rw [hl] at hslot
  cases hb : b i with
  | some e =>
    rw [hb] at hslot
    cases hslot
    obtain ⟨-, hblink, -⟩ := hp
    cases hblink
  | none =>
    rw [hb] at hslot
    refine ⟨hslot.symm, h.timer.currentSlot, boardRegistered_padLevel_of_others h fun j hj e hbj => ?_⟩
    have hslotj := h.slot j hj
    rw [hbj] at hslotj
    have hji : j ≠ i := fun hji => by rw [hji, hb] at hbj; cases hbj
    exact hown j l _ hl hslotj rfl hji

/-- No LED takes part after RESET. -/
theorem reset_padInStep (i : Nat) (ps : Pads) (is : List Instant) :
    PadInStep i { State.reset with pad := ps, inputs := is } := by
  intro l hl hp
  obtain ⟨hreg, -⟩ := hp
  rw [StateProofs.eq_reset_of_getElem? hl] at hreg
  cases hreg

theorem exec_padInStep {x : Instr} {i : Nat} {s t : State} (h : exec x s = .next t) (htimer : BlinkNeedsTimer s)
    (hown : OwnPad i s) (hown' : OwnPad i t) (hs : PadInStep i s) : PadInStep i t := by
  by_cases hr : x = .reset
  · subst hr
    rw [exec_reset] at h
    cases h
    exact reset_padInStep i s.pad s.inputs
  · rcases exec_cases h hr with ⟨-, rfl⟩ | ⟨k, p, n, m, -, rfl⟩ | ⟨v, rfl⟩ | ⟨k, l, q, hl, hreg, -, rfl⟩ | ⟨-, rfl⟩ |
      ⟨-, rfl⟩ | ⟨-, -, rfl⟩ | ⟨-, rfl⟩
    · exact boardRegistered_padInStep (RegistryProofs.anyBoardIsRegistered Config.board s) hown' hs
    · exact doRegister_padInStep (k := k.toNat) (p := p) (n := n) (m := m) hown' hs
    · exact hs
    · exact fullPath_padInStep (SettingProofs.fullPath_meets_rules hl q) hl hreg htimer hown hs
    · exact hs
    · exact hs
    · exact serveInterrupt_padInStep hown hs
    · exact hs

/-- Settles O44: the step of an instruction, or the answer to an illegal word, which leaves LEDs and pads. -/
theorem stepKeepsPadInStep : Obligations.StepKeepsPadInStep := by
  intro i s t htimer hown hown' hs h
  rcases step_cases h with ⟨x, -, h⟩ | ⟨e, -, rfl⟩
  · exact exec_padInStep (s := s.consume) h htimer hown hown' hs
  · exact hs

end Sys2Proof.SlotAdvanceProofs
end

section
/-! The proofs about failure (`60_exceptions.md`): every step has a next state, and a command with an index out of range
writes its answer and nothing else. -/

namespace Sys2Proof.ExceptionProofs

open Sys2Proof.Machine

/-! ## No path stops the machine -/

/-- Every instruction has a next state, the one its own equation names. -/
theorem exec_hasNext (i : Instr) (s : State) : ∃ t, exec i s = .next t := by
  cases i with
  | init => exact ⟨_, exec_init s⟩
  | register x p n m => exact ⟨_, exec_register x p n m s⟩
  | setstate x st m r => exact ⟨_, exec_setstate x st m r s⟩
  | set x st => exact ⟨_, exec_set x st s⟩
  | blink x m c => exact ⟨_, exec_blink x m c s⟩
  | get x => exact ⟨_, exec_get x s⟩
  | toggle x => exact ⟨_, exec_toggle x s⟩
  | overflow => exact ⟨_, exec_overflow s⟩
  | otherflag => exact ⟨_, exec_otherflag s⟩
  | isr => exact ⟨_, exec_isr s⟩
  | reset => exact ⟨_, exec_reset s⟩

theorem step_of_fetch_ok {s : State} {i : Instr} (h : s.fetch = .ok i) : step s = exec i s.consume := by
  rw [step, h]

theorem step_of_fetch_error {s : State} {e : Illegal} (h : s.fetch = .error e) :
    step s = .next s.consume.answerIllegal := by
  rw [step, h]

/-- A step runs an instruction, or answers an illegal word (R58); both have a next state. -/
theorem step_hasNext (s : State) : ∃ t, step s = .next t := by
  cases hf : s.fetch with
  | ok i =>
    obtain ⟨t, ht⟩ := exec_hasNext i s.consume
    exact ⟨t, (step_of_fetch_ok hf).trans ht⟩
  | error e => exact ⟨_, step_of_fetch_error hf⟩

/-! ## An index out of range -/

/-- The primitive rejects an index no slot has, whatever is requested of it (R89). -/
theorem setLedState_of_ge {i : Nat} (hi : 4 ≤ i) (s : State) (q : Request) :
    s.setLedState i q = { s with resp := 0xFF } :=
  SettingProofs.setLedState_of_none (Vector.getElem?_eq_none hi) q

/-- Settles O14: each instruction's own equation names its next state, and an index out of range leaves REGISTER, the
primitive and GET nothing to do but answer. -/
theorem everyStepHasANextState : Obligations.EveryStepHasANextState := by
  refine ⟨step_hasNext, exec_hasNext, fun s x hx =>
    ⟨fun p n m => ?register, fun st m r => ?setstate, fun st => ?set, fun m c => ?blink, ?toggle, ?get⟩⟩
  case register => exact (RegistryProofs.registerStoresAndDrivesDark s x p n m).2 hx
  case setstate => rw [exec_setstate, setLedState_of_ge hx]
  case set => rw [exec_set, setLedState_of_ge hx]
  case blink => rw [exec_blink, setLedState_of_ge hx]
  case toggle => rw [exec_toggle, setLedState_of_ge hx]
  case get => exact RegistryProofs.exec_get_of_queryState (RegistryProofs.queryState_of_ge hx)

end Sys2Proof.ExceptionProofs
end

section
/-! The proofs about reset and the hazards (`70_reset_and_hazards.md`): what the ISR can do, what it finds when no LED
blinks, and the three hazards of whole steps: no interrupt before INIT, drift, the overflow that outlives the stop. -/

namespace Sys2Proof.HazardProofs

open Sys2Proof.Machine Sys2Proof.Safety

/-! ## What the ISR can do (R101 to R103) -/

/-- An ISR that changes anything finds the interrupt line enabled; its run is the slot advance or only clears the
flags. -/
theorem exec_isr_cases {s t : State} (h : exec .isr s = .next t) :
    t = s ∨ (s.irqEn = true ∧ (Advanced s t ∨ t = s.clearFlags)) := by
  rw [exec_isr] at h
  cases h
  split
  · obtain ⟨hen, -⟩ := s.isrGuard_iff.1 ‹_›
    refine .inr ⟨hen, ?_⟩
    cases hovf : s.timOvf with
    | true => exact .inl (SlotAdvanceProofs.serveInterrupt_advanced hovf)
    | false => exact .inr (SlotAdvanceProofs.serveInterrupt_of_no_overflow hovf)
  · exact .inl rfl

theorem exec_isr_of_irq_disabled {s t : State} (h : exec .isr s = .next t) (hen : s.irqEn = false) : t = s := by
  rcases exec_isr_cases h with e | ⟨hen', -⟩
  · exact e
  · rw [hen] at hen'
    cases hen'

/-! ## No interrupt before INIT (R140) -/

/-- Settles O53: the guard of the ISR is false, and any other write of the slot counter restarts it at 0. -/
theorem noSlotAdvanceBeforeInit : Obligations.NoSlotAdvanceBeforeInit := by
  intro i s t h hinit hen hslot
  by_cases hr : i = .reset
  · subst hr
    rw [exec_reset] at h
    cases h
    exact ⟨rfl, rfl⟩
  by_cases hisr : i = .isr
  · subst hisr
    rw [exec_isr_of_irq_disabled h hen]
    exact ⟨hen, hslot⟩
  obtain ⟨hirq, -⟩ := StateProofs.onlyInitAndResetWriteTheIrq i s t h hinit hr
  refine ⟨hirq.trans hen, ?_⟩
  rcases TimerProofs.exec_startsOrNot h hisr hr with ⟨-, hstart⟩ | hnot
  · exact hstart.currentSlot
  · exact hnot.currentSlot.trans hslot

/-! ## The slot advance when no LED blinks (R105) -/

theorem blinking_congr {s t : State} (h : t.led = s.led) : Blinking t ↔ Blinking s := by
  rw [Blinking, Blinking, h]

section
variable {s t : State} (hdark : ¬ Blinking s)
include hdark

theorem not_takesPart_of_not_blinking {i : Nat} {l : LedSlot} (hl : s.led[i]? = some l) : ¬ TakesPart l :=
  fun ⟨hreg, hb, _⟩ => hdark ⟨i, l, hl, hreg, hb⟩

theorem advanced_led_of_not_blinking (h : Advanced s t) : t.led = s.led := by
  refine Vector.ext fun i hi => ?_
  have hl : s.led[i]? = some s.led[i] := Vector.getElem?_eq_getElem hi
  have hslot := h.slots i
  rw [hl, Option.map_some, SlotAdvanceProofs.advanced_of_not_takesPart (not_takesPart_of_not_blinking hdark hl),
    Vector.getElem?_eq_getElem hi] at hslot
  exact Option.some.inj hslot

theorem advanced_gpioTrace_of_not_blinking (h : Advanced s t) : t.gpioTrace = s.gpioTrace := by
  have hnone : s.led.toList.flatMap (emitted t.currentSlot) = [] := by
    refine List.flatMap_eq_nil_iff.2 fun l hmem => ?_
    obtain ⟨i, hl⟩ := List.mem_iff_getElem?.1 hmem
    rw [Vector.getElem?_toList] at hl
    exact SlotAdvanceProofs.emitted_of_not_takesPart _ (not_takesPart_of_not_blinking hdark hl)
  rw [h.trace, hnone, List.append_nil]

theorem exec_isr_led_of_not_blinking (h : exec .isr s = .next t) : t.led = s.led := by
  rcases exec_isr_cases h with rfl | ⟨-, hadv | rfl⟩
  · rfl
  · exact advanced_led_of_not_blinking hdark hadv
  · exact s.clearFlags_led

end

/-! ## Drift (R136) -/

theorem drift_of_timRun {s t : State} (hs : s.timRun = true) (hrun : t.timRun = s.timRun) (hdark : ¬ Blinking t) :
    Drift t := ⟨hrun.trans hs, hdark⟩

/-- Drift is a matter of `tim_run` and the slots only. -/
theorem drift_of_same {s t : State} (hs : Drift s) (hrun : t.timRun = s.timRun) (hled : t.led = s.led) : Drift t :=
  drift_of_timRun hs.1 hrun (mt (blinking_congr hled).1 hs.2)

theorem exec_isr_timRun {s t : State} (h : exec .isr s = .next t) : t.timRun = s.timRun :=
  (SlotAdvanceProofs.exec_isr_sameControl h).timRun

theorem exec_register_timRun {s t : State} {x : Index} {p n : Half} {m : Bit}
    (h : exec (.register x p n m) s = .next t) : t.timRun = s.timRun := by
  rw [exec_register] at h
  cases h
  rw [State.answer_timRun, State.doRegister_timRun]

/-- The full path leaves the timer running exactly when some LED blinks (R92). -/
theorem not_drift_of_fullPath {i : Nat} {l : LedSlot} {st : LedState} {m r : Half} {s t : State}
    (h : FullPath i l st m r s t) : ¬ Drift t :=
  fun ⟨hrun, hdark⟩ => hdark (h.runsIff.1 hrun)

/-- Settles O54: neither the ISR nor registration arbitrates, and of SETSTATE only the full path does. -/
theorem driftBeginsLastsAndEnds : Obligations.DriftBeginsLastsAndEnds := by
  refine ⟨fun s t hrun _ h hdark => ?isrBegins, fun s t x p n m hrun _ h hdark => ?registerBegins,
    fun board s hrun _ hdark => ?initBegins, fun s t hs h => ?isrLasts, fun s t x hs h => ?getLasts,
    fun s t x st m r l hs hl hr h => ⟨fun heq => ?shortCircuitLasts, fun hne => ?fullPathEnds⟩⟩
  case isrBegins => exact drift_of_timRun hrun (exec_isr_timRun h) hdark
  case registerBegins => exact drift_of_timRun hrun (exec_register_timRun h) hdark
  case initBegins =>
    exact drift_of_timRun hrun (RegistryProofs.anyBoardIsRegistered board s).timer.timRun hdark
  case isrLasts => exact drift_of_same hs (exec_isr_timRun h) (exec_isr_led_of_not_blinking hs.2 h)
  case getLasts =>
    rw [exec_get] at h
    cases h
    exact drift_of_same hs (State.answer_timRun s _) (State.answer_led s _)
  case shortCircuitLasts =>
    rw [exec_setstate, SettingProofs.setLedState_of_equal hl hr heq] at h
    cases h
    exact hs
  case fullPathEnds =>
    rw [exec_setstate] at h
    cases h
    exact not_drift_of_fullPath (SettingProofs.setLedState_of_differs (q := ⟨st, m, r⟩) hl hr hne)

/-! ## A pending overflow outlives `tim_disable` (R138) -/

/-- A request that stops the running timer took the full path: the short-circuit leaves the timer. -/
theorem setLedState_fullPath_of_stopped {s : State} {i : Nat} {l : LedSlot} (hl : s.led[i]? = some l)
    (hr : l.registered = true) {q : Request} (hrun : s.timRun = true) (hstop : (s.setLedState i q).timRun = false) :
    FullPath i l q.state q.mask q.repeats s (s.setLedState i q) := by
  refine SettingProofs.setLedState_of_differs hl hr fun heq => ?_
  have hkept : (s.setLedState i q).timRun = s.timRun := by rw [SettingProofs.setLedState_of_equal hl hr heq]
  rw [hstop, hrun] at hkept
  cases hkept

/-- The full path that stops the timer leaves no LED blinking, and of the timer's bits it writes `tim_run` only (R82,
R92). -/
theorem stopped_of_fullPath {i : Nat} {l : LedSlot} {st : LedState} {m r : Half} {s t : State}
    (h : FullPath i l st m r s t) (hrun : s.timRun = true) (hstop : t.timRun = false) :
    ¬ Blinking t ∧ SameTimer { s with timRun := false } t := by
  have hdark : ¬ Blinking t := mt h.runsIff.2 (Bool.eq_false_iff.1 hstop)
  exact ⟨hdark, h.stopped hdark hrun⟩

/-- Settles O55: the stop keeps the pending request and leaves no LED for the ISR to advance. -/
theorem pendingOverflowOutlivesTheStop : Obligations.PendingOverflowOutlivesTheStop := by
  intro s t x l hrun hovf hie hen hl hr h hstop
  rw [exec_set] at h
  cases h
  have hpath := setLedState_fullPath_of_stopped hl hr hrun hstop
  obtain ⟨hdark, hsame⟩ := stopped_of_fullPath hpath hrun hstop
  obtain ⟨u, hu, hadv⟩ := (SlotAdvanceProofs.isrAdvancesEveryLed _ (hpath.rest.irqEn.trans hen)).1
    (hsame.timOvf.trans hovf) (.inl (hsame.timOvfIe.trans hie))
  refine ⟨u, hu, ?_, advanced_led_of_not_blinking hdark hadv, advanced_gpioTrace_of_not_blinking hdark hadv,
    hadv.timOvf⟩
  rw [hadv.currentSlot, hsame.currentSlot]

end Sys2Proof.HazardProofs
end

section
/-! The proofs about the round trip of the encoding (`30_encoding.md` sections 2 and 3): which words a row of the opcode
map selects, field by field, the two directions between a command and its word, and the instant of every step. -/

namespace Sys2Proof.RoundTripProofs

open Sys2Proof.Machine Sys2Proof.EncodingProofs

/-! ## The opcode map, field by field (R55, R57) -/

/-- The column `mask` of R57 in the field `index`: INIT alone has no index. -/
def fixedIndex : Row → Index
  | .init => 0xF
  | .register | .setstate | .set | .blink | .get | .toggle => 0

/-- The column `mask` of R57 in the byte `A`: a mode leaves one bit free, a state two. -/
def fixedByte : Row → BitVec 8
  | .register => 0xFE
  | .setstate | .set => 0xFC
  | .init | .blink | .get | .toggle => 0xFF

/-- The column `mask` of R57 in `f1`, and the same in `f2`: a row has both as operands or neither. -/
def fixedHalf : Row → Half
  | .register | .setstate | .blink => 0
  | .init | .set | .get | .toggle => 0xFFFF

theorem fixedBits_eq_wordOf (r : Row) :
    r.fixedBits = wordOf 0xF (fixedIndex r) (fixedByte r) (fixedHalf r) (fixedHalf r) := by
  cases r <;> rfl

theorem pattern_eq_wordOf (r : Row) : r.pattern = wordOf (opcodeField r.pattern) 0 0 0 0 := by
  cases r <;> rfl

/-- The fields of a word besides its opcode have a 0 wherever the row requires one (R59). -/
structure FitsRow (r : Row) (x : Index) (a : BitVec 8) (f g : Half) : Prop where
  index : x &&& fixedIndex r = 0
  byte : a &&& fixedByte r = 0
  f1 : f &&& fixedHalf r = 0
  f2 : g &&& fixedHalf r = 0

/-- A row selects the words with its opcode whose other fields fit it. -/
theorem selects_wordOf_iff {r : Row} {op : BitVec 4} {x : Index} {a : BitVec 8} {f g : Half} :
    r.selects (wordOf op x a f g) = true ↔ op = opcodeField r.pattern ∧ FitsRow r x a f g := by
  have hop : op &&& 0xF = op := BitVec.and_allOnes
  rw [selects_iff, fixedBits_eq_wordOf, pattern_eq_wordOf, wordOf_and, wordOf_inj, hop, opcodeField_wordOf]
  exact and_congr_right fun _ =>
    ⟨fun ⟨hx, ha, hf, hg⟩ => ⟨hx, ha, hf, hg⟩, fun ⟨hx, ha, hf, hg⟩ => ⟨hx, ha, hf, hg⟩⟩

/-! ## The byte `A` (R55) -/

/-- The seven bits a mode leaves are zero exactly when the byte is a mode, zero-extended. -/
theorem and_modeMask_eq_zero {a : BitVec 8} : a &&& 0xFE = 0 ↔ ∃ m : Bit, a = m.setWidth 8 := by
  revert a
  decide

/-- The six bits a state code leaves are zero exactly when the byte is a two-bit code, zero-extended. -/
theorem and_stateMask_eq_zero {a : BitVec 8} : a &&& 0xFC = 0 ↔ ∃ c : BitVec 2, a = c.setWidth 8 := by
  revert a
  decide

/-- An operand read back from the byte it was zero-extended to. -/
theorem setWidth_setWidth_self {n : Nat} (v : BitVec n) (hn : n ≤ 8) : (v.setWidth 8).setWidth n = v := by
  rw [BitVec.setWidth_setWidth_of_le v hn, BitVec.setWidth_eq]

theorem ofCode_eq_some {c : BitVec 2} {st : LedState} : LedState.ofCode c = some st ↔ c = st.code := by
  revert c
  cases st <;> decide

/-- The command read with a state operand, by the state whose code the word carries. -/
theorem withState_eq_ok_iff {w : CmdWord} {f : LedState → Instr} {i : Instr} :
    withState w f = .ok i ↔ ∃ st, stateField w = st.code ∧ f st = i := by
  simp only [← ofCode_eq_some, withState]
  cases LedState.ofCode (stateField w) <;> simp

/-! ## From a command to its word and back -/

/-- A word built from a row's opcode and fields that fit the row decodes to what the row reads. -/
theorem decode_wordOf {r : Row} {op : BitVec 4} {x : Index} {a : BitVec 8} {f g : Half}
    (hop : op = opcodeField r.pattern) (hfit : FitsRow r x a f g) :
    decode (wordOf op x a f g) = r.read (wordOf op x a f g) :=
  decode_of_selects (selects_wordOf_iff.2 ⟨hop, hfit⟩)

/-- Settles O3: the fields of the word the encoder builds fit the command's row, and the row reads them back. -/
theorem encodedCommandDecodesBack : Obligations.EncodedCommandDecodesBack := by
  intro i hwf
  cases i with
  | init => exact ⟨_, rfl, decode_wordOf (r := .init) rfl ⟨rfl, rfl, rfl, rfl⟩⟩
  | register x p n m =>
    have hfit : FitsRow .register x (m.setWidth 8) p n :=
      ⟨BitVec.and_zero, and_modeMask_eq_zero.2 ⟨m, rfl⟩, BitVec.and_zero, BitVec.and_zero⟩
    exact ⟨_, rfl, (decode_wordOf rfl hfit).trans (by simp [Row.read])⟩
  | setstate x st m r =>
    have hfit : FitsRow .setstate x (st.code.setWidth 8) m r :=
      ⟨BitVec.and_zero, and_stateMask_eq_zero.2 ⟨st.code, rfl⟩, BitVec.and_zero, BitVec.and_zero⟩
    exact ⟨_, rfl, (decode_wordOf rfl hfit).trans (withState_eq_ok_iff.2 ⟨st, by simp, by simp⟩)⟩
  | set x st =>
    have hfit : FitsRow .set x (st.code.setWidth 8) 0 0 :=
      ⟨BitVec.and_zero, and_stateMask_eq_zero.2 ⟨st.code, rfl⟩, rfl, rfl⟩
    exact ⟨_, rfl, (decode_wordOf rfl hfit).trans (withState_eq_ok_iff.2 ⟨st, by simp, by simp⟩)⟩
  | blink x m c =>
    have hfit : FitsRow .blink x 0 m c := ⟨BitVec.and_zero, rfl, BitVec.and_zero, BitVec.and_zero⟩
    exact ⟨_, rfl, (decode_wordOf rfl hfit).trans (by simp [Row.read])⟩
  | get x =>
    have hfit : FitsRow .get x 0 0 0 := ⟨BitVec.and_zero, rfl, rfl, rfl⟩
    exact ⟨_, rfl, (decode_wordOf rfl hfit).trans (by simp [Row.read])⟩
  | toggle x =>
    have hfit : FitsRow .toggle x 0 0 0 := ⟨BitVec.and_zero, rfl, rfl, rfl⟩
    exact ⟨_, rfl, (decode_wordOf rfl hfit).trans (by simp [Row.read])⟩
  | overflow | otherflag | isr | reset => cases hwf

/-! ## From a word to its command and back -/

/-- A word that decodes is selected by a row that reads the command from it. -/
theorem exists_row_of_decode {w : CmdWord} {i : Instr} (h : decode w = .ok i) :
    ∃ r : Row, r.selects w = true ∧ r.read w = .ok i := by
  unfold decode at h
  cases hrow : Row.ofOpcode (opcodeField w) with
  | none => simp [hrow] at h
  | some r =>
    rw [hrow] at h
    by_cases hsel : r.selects w = true
    · exact ⟨r, hsel, by simpa [hsel] using h⟩
    · simp [hsel] at h

/-- A field of which every bit must be zero is zero. -/
theorem eq_zero_of_and_allOnes {n : Nat} {v m : BitVec n} (h : v &&& m = 0) (hm : m = BitVec.allOnes n) : v = 0 := by
  rwa [hm, BitVec.and_allOnes] at h

/-- What a row reads from fields that fit it is encoded by the word of these fields. -/
theorem encode_of_read {r : Row} {x : Index} {a : BitVec 8} {f g : Half} {i : Instr} (hfit : FitsRow r x a f g)
    (h : r.read (wordOf (opcodeField r.pattern) x a f g) = .ok i) :
    encode i = some (wordOf (opcodeField r.pattern) x a f g) := by
  obtain ⟨hx, ha, hf, hg⟩ := hfit
  cases r with
  | init =>
    cases h
    rw [eq_zero_of_and_allOnes hx rfl, eq_zero_of_and_allOnes ha rfl, eq_zero_of_and_allOnes hf rfl,
      eq_zero_of_and_allOnes hg rfl]
    rfl
  | register =>
    obtain ⟨m, rfl⟩ := and_modeMask_eq_zero.1 ha
    cases h
    rw [indexField_wordOf, f1Field_wordOf, f2Field_wordOf, modeField_wordOf, setWidth_setWidth_self m (by decide)]
    rfl
  | setstate =>
    obtain ⟨c, rfl⟩ := and_stateMask_eq_zero.1 ha
    obtain ⟨st, hst, rfl⟩ := withState_eq_ok_iff.1 h
    rw [stateField_wordOf, setWidth_setWidth_self c (by decide)] at hst
    rw [indexField_wordOf, f1Field_wordOf, f2Field_wordOf, hst]
    rfl
  | set =>
    obtain ⟨c, rfl⟩ := and_stateMask_eq_zero.1 ha
    obtain ⟨st, hst, rfl⟩ := withState_eq_ok_iff.1 h
    rw [stateField_wordOf, setWidth_setWidth_self c (by decide)] at hst
    rw [hst, eq_zero_of_and_allOnes hf rfl, eq_zero_of_and_allOnes hg rfl, indexField_wordOf]
    rfl
  | blink =>
    cases h
    rw [eq_zero_of_and_allOnes ha rfl, indexField_wordOf, f1Field_wordOf, f2Field_wordOf]
    rfl
  | get | toggle =>
    cases h
    rw [eq_zero_of_and_allOnes ha rfl, eq_zero_of_and_allOnes hf rfl, eq_zero_of_and_allOnes hg rfl, indexField_wordOf]
    rfl

/-- Settles O4: the row that selects the word leaves free only the bits it reads, and the encoder writes these back. -/
theorem decodedWordIsItsEncoding : Obligations.DecodedWordIsItsEncoding := by
  intro w i h
  obtain ⟨r, hsel, hread⟩ := exists_row_of_decode h
  rw [← wordOf_fields w] at hsel hread ⊢
  obtain ⟨hop, hfit⟩ := selects_wordOf_iff.1 hsel
  rw [hop] at hread ⊢
  exact encode_of_read hfit hread

/-! ## The instant of every step (R53, R63) -/

/-- A command's word on `cmd` causes the command. -/
theorem instantOf_cause_of_command {i : Instr} (hwf : i.wellFormed = true) : (instantOf i).cause = .ok i := by
  obtain ⟨w, hw, hdecode⟩ := encodedCommandDecodesBack i hwf
  have hinstant : instantOf i = ⟨false, .cmd w⟩ := by rw [instantOf, hw]
  rw [hinstant]
  exact hdecode

/-- Settles O5: a command by the round trip of its word, an event by the line it arrives on. -/
theorem instantCausesItsStep : Obligations.InstantCausesItsStep := by
  intro i
  cases i with
  | init | register | setstate | set | blink | get | toggle => exact instantOf_cause_of_command rfl
  | overflow | otherflag | isr | reset => rfl

end Sys2Proof.RoundTripProofs
end

section
/-! The proofs about one step (`20_memory.md` section 3) and two facts about the state (`10_state.md`): what the coming
instant runs, the ISR without its guard, the canonical form of the pads, and the invariants at reset. -/

namespace Sys2Proof.StepProofs

open Sys2Proof.Machine Sys2Proof.Safety

/-! ## What the coming instant runs (R49, R53) -/

/-- Settles O9, by the step of a word on `cmd` that decodes. -/
theorem stepRunsTheDecodedCommand : Obligations.StepRunsTheDecodedCommand :=
  fun _ _ _ _ hs h => EncodingProofs.step_of_decode_ok hs h

theorem decodeTableWord_eq_some {n w : Nat} {i : Instr} :
    decodeTableWord n w = some i ↔ decode (tableWord n w) = .ok i := by
  unfold decodeTableWord
  cases decode (tableWord n w) <;> simp

/-- Settles O8: the presented word is the head of the schedule, and taking it leaves the schedule as it was. -/
theorem presentedWordRunsNext : Obligations.PresentedWordRunsNext := by
  intro s w i h
  exact stepRunsTheDecodedCommand (s.withFetchWord 48 w) (tableWord 48 w) s.inputs i rfl (decodeTableWord_eq_some.1 h)

/-- A schedule that has run out is a quiet environment, and there is nothing to take from it. -/
theorem step_of_inputs_nil {s : State} (hs : s.inputs = []) : step s = exec .isr s := by
  have hfetch : s.fetch = .ok .isr := by rw [State.fetch, State.nextInstant, hs]; rfl
  have hconsume : s.consume = s := by rw [State.consume, hs, List.tail_nil, ← hs]
  rw [ExceptionProofs.step_of_fetch_ok hfetch, hconsume]

/-- Settles O10: the instant at the head of the schedule causes the event, `rst` whatever else it carries. -/
theorem stepRunsTheEvents : Obligations.StepRunsTheEvents :=
  fun _ _ => ⟨fun hs => SlotAdvanceProofs.step_of_cause hs rfl, fun hs => SlotAdvanceProofs.step_of_cause hs rfl,
    fun _ hs => SlotAdvanceProofs.step_of_cause hs rfl, fun hs => SlotAdvanceProofs.step_of_cause hs rfl,
    step_of_inputs_nil⟩

/-- Settles O33: the hypothesis is that the guard of R101 is false. -/
theorem isrWaitsForItsGuard : Obligations.IsrWaitsForItsGuard := by
  intro s h
  rw [exec_isr, if_neg (mt s.isrGuard_iff.1 h)]

/-! ## The canonical form of the pads -/

/-- GPIO commands, one after another, keep the canonical form. -/
theorem foldl_apply_wf (cmds : List GpioCmd) {ps : Pads} (h : Pads.wf ps) : Pads.wf (cmds.foldl Pads.apply ps) := by
  induction cmds generalizing ps with
  | nil => exact h
  | cons c cmds ih => exact ih (Pads.apply_wf ps c h)

/-- RESET leaves the pads, and any other instruction drives them by the commands of its trace. -/
theorem exec_keeps_padsWf {i : Instr} {s t : State} (h : exec i s = .next t) (hs : Pads.wf s.pad) :
    Pads.wf t.pad := by
  by_cases hr : i = .reset
  · subst hr
    rw [exec_reset] at h
    cases h
    exact hs
  · obtain ⟨cmds, -, hpad⟩ := StateProofs.traceExplainsThePads i s t hr h
    rw [hpad]
    exact foldl_apply_wf cmds hs

/-- Settles O43: every instruction keeps the form, and an illegal word drives no pad. -/
theorem stepKeepsPadsCanonical : Obligations.StepKeepsPadsCanonical := by
  intro s t hs h
  exact step_keeps (P := fun u => Pads.wf u.pad) (fun _ _ _ => exec_keeps_padsWf) (fun _ _ hs => hs)
    (fun _ hs => hs) h hs

/-! ## The invariants at reset -/

/-- Settles O2: at reset every slot is `(OFF, 0, 0)` and unregistered, the timer is stopped and no pad is driven. -/
theorem resetMeetsTheInvariants : Obligations.ResetMeetsTheInvariants := by
  refine ⟨fun i l hl _ => ?plain, fun hb => ?blink, fun i l hl _ => ?inert, ?pads, fun hrun => ?timer, ?canonical⟩
  case plain =>
    rw [StateProofs.eq_reset_of_getElem? hl]
    exact ⟨rfl, rfl⟩
  case blink => exact absurd hb StateProofs.reset_not_blinking
  case inert =>
    rw [StateProofs.eq_reset_of_getElem? hl]
    exact ⟨rfl, rfl, rfl⟩
  case pads => exact StateProofs.reset_padsDefined [] []
  case timer => cases hrun
  case canonical => exact List.Pairwise.nil

end Sys2Proof.StepProofs
end
